-- ==== Sys2Proof/Word.lean ====
section
/-! DEFINITION. The words of the LTC230x codec block: bit-vector widths (00_scope.md R7), the two-valued
configuration fields (10_state.md R16, R17, R20), and what travels on the bus and response ports
(00_scope.md R10; 30_encoding.md R44 to R46). -/

namespace Sys2Proof

/-- An octet of the bus port (`CTRL_W` = 8 of R7). -/
abbrev Byte := BitVec 8

/-- A 16-bit value: raw conversion word, sample, millivolt code or response data (`WORD_W` of R7). -/
abbrev Word := BitVec 16

/-- A 7-bit bus address (`ADDR_W` of R7). -/
abbrev Addr := BitVec 7

/-- A channel-pair selection (`CH_W` of R7). Bits 3..0 are S/D, O/S, S1, S0 (R15). -/
abbrev Channel := BitVec 4

/-- A 24-bit command word (`CMD_W` of R7; R41). -/
abbrev Command := BitVec 24

/-- The polarity mode UNI (R16). -/
inductive Polarity where
  | bipolar
  | unipolar
  deriving DecidableEq, Repr, Inhabited

/-- The sleep mode SLP (R17). -/
inductive SleepMode where
  | wake
  | sleep
  deriving DecidableEq, Repr, Inhabited

/-- The five transport error kinds, in the order of R45 (60_exceptions.md R78). -/
inductive TransportError where
  | bufferOverflow
  | addressNack
  | dataNack
  | otherError
  | timeout
  deriving DecidableEq, Repr, Inhabited

/-- What `BusEndTx` returns: one of six status kinds (R46). -/
inductive BusStatus where
  | ok
  | error (e : TransportError)
  deriving DecidableEq, Repr, Inhabited

/-- The seven error kinds a response can report (R78). -/
inductive ErrorKind where
  | transport (e : TransportError)
  | notInitialized
  | illegalCommand
  deriving DecidableEq, Repr

/-- A response (R44): data only in the `ok` arm. -/
inductive Response where
  | ok (data : Word)
  | err (e : ErrorKind)
  deriving DecidableEq, Repr

/-- The events of the five bus primitives (R10). -/
inductive BusEvent where
  | beginTx (a : Addr)
  | write (b : Byte)
  | endTx (st : BusStatus)
  | request (a : Addr) (n : Nat)
  | readByte (b : Byte)
  deriving DecidableEq, Repr

end Sys2Proof
end

