-- ==== Sys2Proof/Config.lean ====
section
/-! DEFINITION. What an implementation fixes and what the spec leaves free (00_scope.md R7; 10_state.md R26):
`ADDR_VALID`, `RESET_CFG`, the two unspecified reset values, and the free draws of the bus oracle.
Every `opaque` constant here has no body: no proof can learn its value. -/

namespace Sys2Proof.Config

/-- `GLOBAL_ADDR` (R7, R30): the one member of `ADDR_VALID` whose value the spec gives. -/
def globalAddr : Addr := 0x6B

/-- Every member of `ADDR_VALID` lies in 0x08..0x77 (92_eei_decisions.md D7). -/
def inAddrRange (a : Addr) : Bool := (0x08#7).ule a && a.ule 0x77#7

/-- What D7 asks of the nine strap addresses: nine distinct addresses in range, none of them `GLOBAL_ADDR`. -/
def strapSetOk (l : List Addr) : Bool :=
  l.length == 9 && decide l.Nodup && l.all inAddrRange && !l.contains globalAddr

/-- The OPEN part of the parameter `ADDR_VALID` (R7, D7), a free value (log 1). -/
opaque strapParam : List Addr

/-- D7's informative default; it stands only where `strapParam` breaks what D7 asks of it (log 1). -/
def strapDefault : List Addr :=
  [0x08, 0x09, 0x0A, 0x0B, 0x18, 0x19, 0x1A, 0x1B, 0x28]

/-- The nine strap addresses (R30): any nine that D7 admits, and nothing more is known of them. -/
def strapAddrs : List Addr := if strapSetOk strapParam then strapParam else strapDefault

/-- `ADDR_VALID` (R7, R30): `GLOBAL_ADDR` and the nine strap addresses. -/
def addrValid : List Addr := globalAddr :: strapAddrs

/-- Membership in `ADDR_VALID`. The range test is implied by D7 and stands first, so that an address which is
illegal for EVERY `ADDR_VALID` (95_test_vectors.md E18, E19) is decided without knowing the strap addresses. -/
def legalAddr (a : Addr) : Bool := inAddrRange a && addrValid.contains a

/-- `RESET_CFG` (R7): the reset value of (CH, UNI, SLP). -/
structure ResetCfg where
  ch : Channel
  uni : Polarity
  slp : SleepMode
  deriving DecidableEq, Repr, Inhabited

/-- The OPEN parameter `RESET_CFG` (R28, D9), a free value (log 2). -/
opaque resetCfg : ResetCfg

/-- ADDR after reset: unspecified (R14, R28), a free value (log 3). -/
opaque resetAddr : Addr

/-- HI after reset: unspecified (R28), a free value (log 4). -/
opaque resetHi : Byte

/-- The oracle's free draw of a `BusEndTx` status (R68), by draw number (log 6). -/
opaque busStatus : Nat → BusStatus

/-- The oracle's free draw of a `BusReadByte` byte (R68), by draw number (log 6). -/
opaque busByte : Nat → Byte

/-- `N_RX` (R7): bytes requested in the read phase. -/
def nRx : Nat := 2

/-- `FULL_SCALE` in volts (R7): 4.096. -/
def fullScale : ℚ := 4096 / 1000

/-- `LSB` in volts (R7): `FULL_SCALE` / 4096. -/
def lsb : ℚ := fullScale / 4096

end Sys2Proof.Config
end

