-- ==== Sys2Proof/Machine/State.lean ====
section
/-! DEFINITION. The state of the block (10_state.md R13, R21), with the environment's inputs and the two output
ports beside it as plain data (70_reset_and_hazards.md R104), and the state after reset (R28, R93). -/

namespace Sys2Proof.Machine

/-- PHASE (R21). -/
inductive Phase where
  /-- No command in progress. -/
  | idle
  /-- A non-read command in progress. -/
  | exec
  /-- The write phase of a read. -/
  | tx
  /-- The read phase of a read. -/
  | rx
  deriving DecidableEq, Repr

/-- What the HOST does next (00_scope.md R6; R93). The model's own type (log 7). -/
inductive HostInput where
  /-- A word on the command port. -/
  | command (w : Command)
  /-- Reset, between commands. -/
  | reset
  /-- A word on the command port whose execution reset cuts short after so many bus primitives (log 11). -/
  | commandThenReset (w : Command) (primitives : Nat)
  deriving DecidableEq, Repr

/-- The BUS's answers to come (42_transactions.md R68): the listed ones first, then free draws (log 6). -/
structure Oracle where
  statuses : List BusStatus
  bytes : List Byte
  draws : Nat
  deriving DecidableEq, Repr

/-- The machine. The first seven fields are the spec's state; the last four are the model's own. -/
structure State where
  /-- ADDR[6:0] (R14). -/
  addr : Addr
  /-- CH[3:0] (R15). -/
  ch : Channel
  /-- UNI (R16). -/
  uni : Polarity
  /-- SLP (R17). -/
  slp : SleepMode
  /-- INIT (R19). -/
  init : Bool
  /-- PHASE (R21). -/
  phase : Phase
  /-- HI[7:0] (R21). -/
  hi : Byte
  /-- The HOST's inputs not yet taken, the next one first (log 7). -/
  inputs : List HostInput
  /-- The BUS's answers to come (log 6). -/
  oracle : Oracle
  /-- Every response given, oldest first: the response port (R22, R44; log 8). -/
  responses : List Response
  /-- Every bus event, oldest first: the bus port (R10, R22; log 8). -/
  events : List BusEvent
  deriving DecidableEq, Repr

/-- Faults: none. "Errors are responses, not traps" (60_exceptions.md R79), so nothing stops the block (log 15). -/
inductive Fault where
  deriving DecidableEq, Repr

/-- Why a step has no meaning. -/
inductive Refusal where
  /-- Raised by `exec`'s arm of an instruction without a meaning; no arm raises it now. Safe. -/
  | notModelled (mnemonic : String)
  /-- Raised by `step` when a command is presented while BUSY = 1: "a HOST error that the block does not define"
  (R98), which 93_implementation_defined.md U9 treats as `refuse` (log 10). Safe. -/
  | commandWhileBusy
  deriving DecidableEq, Repr

/-- The state after reset (R28, R93). -/
def State.reset : State where
  addr := Config.resetAddr
  ch := Config.resetCfg.ch
  uni := Config.resetCfg.uni
  slp := Config.resetCfg.slp
  init := false
  phase := .idle
  hi := Config.resetHi
  inputs := []
  oracle := { statuses := [], bytes := [], draws := 0 }
  responses := []
  events := []

end Sys2Proof.Machine
end

