-- ==== Sys2Proof/Machine/Flags.lean ====
section
/-! DEFINITION. INIT, the block's only flag (10_state.md R19, R24), the BUSY output (R21), and the STATUS codes of
responses and of the bus status input (30_encoding.md R45, R46). -/

namespace Sys2Proof.Machine

/-- BEGIN's write of INIT (R55). No command clears it (R19). -/
def State.setInit (s : State) : State := { s with init := true }

/-- BUSY = (PHASE != IDLE) (R21). -/
def State.busy (s : State) : Bool := s.phase != .idle

end Sys2Proof.Machine

namespace Sys2Proof

/-- STATUS codes 1 to 5 (R45). -/
def TransportError.code : TransportError → BitVec 3
  | .bufferOverflow => 1
  | .addressNack => 2
  | .dataNack => 3
  | .otherError => 4
  | .timeout => 5

/-- The code `BusEndTx` returns (R46). -/
def BusStatus.code : BusStatus → BitVec 3
  | .ok => 0
  | .error e => e.code

/-- The status kind of a bus code (R46); BUS never returns 6 or 7 (70_reset_and_hazards.md R100). -/
def BusStatus.ofCode (c : BitVec 3) : Option BusStatus :=
  match c.toNat with
  | 0 => some .ok
  | 1 => some (.error .bufferOverflow)
  | 2 => some (.error .addressNack)
  | 3 => some (.error .dataNack)
  | 4 => some (.error .otherError)
  | 5 => some (.error .timeout)
  | _ => none

/-- STATUS codes 1 to 7 (R45, R78). -/
def ErrorKind.code : ErrorKind → BitVec 3
  | .transport e => e.code
  | .notInitialized => 6
  | .illegalCommand => 7

/-- STATUS[2:0] of a response (R44, R45). -/
def Response.status : Response → BitVec 3
  | .ok _ => 0
  | .err e => e.code

/-- DATA[15:0] of a response; on an error it carries no information (R44). -/
def Response.data? : Response → Option Word
  | .ok d => some d
  | .err _ => none

end Sys2Proof
end

