-- ==== Sys2Proof/Syntax.lean ====
section
/-! DEFINITION. The commands of CMD-1: one constructor per row of spec/opcode_table.json (30_encoding.md R43),
with the operands R42 gives each format. -/

namespace Sys2Proof

/-- A decoded command. -/
inductive Instr where
  /-- BEGIN (R55). -/
  | begin (a : Addr)
  /-- SET_ADDRESS (R56). -/
  | setAddress (a : Addr)
  /-- SET_CHANNEL (R57). -/
  | setChannel (ch : Channel)
  /-- SET_POLARITY (R58). -/
  | setPolarity (p : Polarity)
  /-- SET_SLEEP (R59). -/
  | setSleep (m : SleepMode)
  /-- BUILD_CTRL (R61). -/
  | buildCtrl (ch : Channel) (p : Polarity) (m : SleepMode)
  /-- DECODE_SIGNED (R62): `w` is a raw word. -/
  | decodeSigned (w : Word)
  /-- DECODE_VOLTAGE (R63): `s` is a signed sample. -/
  | decodeVoltage (s : Word)
  /-- READ_RAW (R72). -/
  | readRaw
  /-- READ (R73). -/
  | read
  /-- READ_VOLTAGE (R74). -/
  | readVoltage
  deriving DecidableEq, Repr

end Sys2Proof
end

