-- ==== Sys2Proof/WellFormed.lean ====
section
/-! DEFINITION. When a command's operands are legal (30_encoding.md R47): "Only addresses can be illegal inside
a well-masked word". Every other operand is legal at every value its type has. -/

namespace Sys2Proof

/-- R47: an address operand is a member of `ADDR_VALID`. -/
def Instr.wellFormed : Instr → Bool
  | .begin a => Config.legalAddr a
  | .setAddress a => Config.legalAddr a
  | .setChannel _ => true
  | .setPolarity _ => true
  | .setSleep _ => true
  | .buildCtrl _ _ _ => true
  | .decodeSigned _ => true
  | .decodeVoltage _ => true
  | .readRaw => true
  | .read => true
  | .readVoltage => true

end Sys2Proof
end

