-- ==== Sys2Proof/Decode.lean ====
section
/-! DEFINITION. The CMD-1 command word: the opcode table (30_encoding.md R43), the decoder (R47) and the encoder,
both written from R41, R42 and R54. -/

namespace Sys2Proof

/-- The rows of R43. -/
inductive Opcode where
  | begin | setAddress | setChannel | setPolarity | setSleep
  | buildCtrl | decodeSigned | decodeVoltage
  | readRaw | read | readVoltage
  deriving DecidableEq, Repr

/-- A row of R43: a word matches when `word AND mask = matchBits`. -/
structure OpRow where
  op : Opcode
  matchBits : Command
  mask : Command
  deriving DecidableEq, Repr

/-- Why R47 finds a word ILLEGAL. The block answers all three alike (R48). -/
inductive DecodeError where
  /-- OP is not in the table of R43. -/
  | reservedOpcode
  /-- OP is in the table, and a reserved operand bit is set. -/
  | reservedBits
  /-- A format A word whose address is outside `ADDR_VALID`. -/
  | addressNotValid
  deriving DecidableEq, Repr

/-- The opcode map (R43). -/
def opTable : List OpRow :=
  [⟨.begin, 0x010000, 0xFFFF80⟩, ⟨.setAddress, 0x020000, 0xFFFF80⟩, ⟨.setChannel, 0x030000, 0xFFFFF0⟩,
   ⟨.setPolarity, 0x040000, 0xFFFFFE⟩, ⟨.setSleep, 0x050000, 0xFFFFFE⟩]
  ++ [⟨.buildCtrl, 0x100000, 0xFFFFC0⟩, ⟨.decodeSigned, 0x110000, 0xFF0000⟩, ⟨.decodeVoltage, 0x120000, 0xFF0000⟩]
  ++ [⟨.readRaw, 0x200000, 0xFFFFFF⟩, ⟨.read, 0x210000, 0xFFFFFF⟩, ⟨.readVoltage, 0x220000, 0xFFFFFF⟩]

/-- R43: a word matches a row. -/
def OpRow.matches (r : OpRow) (w : Command) : Bool := w &&& r.mask == r.matchBits

/-- R47's first line: the row of a word, if any. -/
def findRow (w : Command) : Option OpRow := opTable.find? (·.matches w)

/-- `OP` (R41). -/
def opField (w : Command) : Byte := w.extractLsb' 16 8

/-- Format A's `a` (R42). -/
def addrField (w : Command) : Addr := w.extractLsb' 0 7

/-- Formats C and K's `ch` (R42). -/
def chField (w : Command) : Channel := w.extractLsb' 0 4

/-- Format W's `w` (R42). -/
def wordField (w : Command) : Word := w.extractLsb' 0 16

/-- One operand bit: format B's `b` is bit 0; format K's `uni` is bit 4 and `slp` bit 5 (R42). -/
def bitField (w : Command) (i : Nat) : BitVec 1 := w.extractLsb' i 1

/-- UNI's bit: 1 = unipolar, 0 = bipolar (R16). -/
def Polarity.bit : Polarity → BitVec 1
  | .bipolar => 0#1
  | .unipolar => 1#1

def Polarity.ofBit (b : BitVec 1) : Polarity := if b = 1#1 then .unipolar else .bipolar

/-- SLP's bit: 1 = sleep, 0 = wake (R17). -/
def SleepMode.bit : SleepMode → BitVec 1
  | .wake => 0#1
  | .sleep => 1#1

def SleepMode.ofBit (b : BitVec 1) : SleepMode := if b = 1#1 then .sleep else .wake

/-- The operands of a word, by its row's format (R42, R54). -/
def readOperands (op : Opcode) (w : Command) : Instr :=
  match op with
  | .begin => .begin (addrField w)
  | .setAddress => .setAddress (addrField w)
  | .setChannel => .setChannel (chField w)
  | .setPolarity => .setPolarity (.ofBit (bitField w 0))
  | .setSleep => .setSleep (.ofBit (bitField w 0))
  | .buildCtrl => .buildCtrl (chField w) (.ofBit (bitField w 4)) (.ofBit (bitField w 5))
  | .decodeSigned => .decodeSigned (wordField w)
  | .decodeVoltage => .decodeVoltage (wordField w)
  | .readRaw => .readRaw
  | .read => .read
  | .readVoltage => .readVoltage

/-- Why a word without a row is ILLEGAL (R47's comment: "reserved OP or a reserved bit set"). -/
def noRowReason (w : Command) : DecodeError :=
  if opTable.any (fun r => opField r.matchBits == opField w) then .reservedBits else .reservedOpcode

/-- R47: find the row, read the operands, refuse an address outside `ADDR_VALID`. -/
def decode (w : Command) : Except DecodeError Instr :=
  match findRow w with
  | none => .error (noRowReason w)
  | some r => if (readOperands r.op w).wellFormed then .ok (readOperands r.op w) else .error .addressNotValid

/-- The row of an instruction (R43). -/
def Instr.opcode : Instr → Opcode
  | .begin _ => .begin
  | .setAddress _ => .setAddress
  | .setChannel _ => .setChannel
  | .setPolarity _ => .setPolarity
  | .setSleep _ => .setSleep
  | .buildCtrl _ _ _ => .buildCtrl
  | .decodeSigned _ => .decodeSigned
  | .decodeVoltage _ => .decodeVoltage
  | .readRaw => .readRaw
  | .read => .read
  | .readVoltage => .readVoltage

/-- OP and OPND side by side (R41): `{OP, OPND}`. -/
def commandWord (op : Byte) (opnd : Word) : Command := (op.setWidth 24 <<< 16) ||| opnd.setWidth 24

/-- The OP value of a row (R43). -/
def Opcode.op : Opcode → Byte
  | .begin => 0x01
  | .setAddress => 0x02
  | .setChannel => 0x03
  | .setPolarity => 0x04
  | .setSleep => 0x05
  | .buildCtrl => 0x10
  | .decodeSigned => 0x11
  | .decodeVoltage => 0x12
  | .readRaw => 0x20
  | .read => 0x21
  | .readVoltage => 0x22

/-- OPND of an instruction, by its format, reserved bits zero (R42). -/
def Instr.operand : Instr → Word
  | .begin a => a.setWidth 16
  | .setAddress a => a.setWidth 16
  | .setChannel ch => ch.setWidth 16
  | .setPolarity p => p.bit.setWidth 16
  | .setSleep m => m.bit.setWidth 16
  | .buildCtrl ch p m => (m.bit.setWidth 16 <<< 5) ||| (p.bit.setWidth 16 <<< 4) ||| ch.setWidth 16
  | .decodeSigned w => w
  | .decodeVoltage s => s
  | .readRaw => 0
  | .read => 0
  | .readVoltage => 0

/-- The word of an instruction (R41). -/
def encode (i : Instr) : Command := commandWord i.opcode.op i.operand

/-- The word that `nbits` bits of a table row stand for, with every bit above them zero. Every command is one
24-bit word (R41, R51), so a longer pattern stands for none. -/
def tableWord (nbits w : Nat) : Option Command :=
  if w % 2 ^ nbits < 2 ^ 24 then some (BitVec.ofNat 24 (w % 2 ^ nbits)) else none

/-- What the decoder reads from a word given as the opcode table numbers its bits. -/
def decodeTableWord (nbits w : Nat) : Option Instr :=
  match tableWord nbits w with
  | some c => (decode c).toOption
  | none => none

end Sys2Proof
end

