-- ==== Sys2Proof/Machine/Operands.lean ====
section
/-! DEFINITION. The values commands compute: the control byte, the sign extender and the voltage scaler
(41_codec.md R61 to R64), the raw-word assembly (42_transactions.md R70), and the control byte of the registers
(10_state.md R18). -/

namespace Sys2Proof.Machine

/-- `build_control_byte` (R61; wire format R49). -/
def controlByte (ch : Channel) (p : Polarity) (m : SleepMode) : Byte :=
  (ch.setWidth 8 <<< 4) ||| (p.bit.setWidth 8 <<< 3) ||| (m.bit.setWidth 8 <<< 2)

/-- CTRL[7:0], derived from the registers (R18). -/
def State.ctrl (s : State) : Byte := controlByte s.ch s.uni s.slp

/-- `decode_raw_to_signed` (R62): `sext_16(w[15:4])`. -/
def decodeRaw (w : Word) : Word := (w.extractLsb' 4 12).signExtend 16

/-- `decode_signed_to_voltage` (R63): the millivolt code of a sample is the sample itself, since one LSB is
exactly 1 mV (R64). -/
def millivolts (s : Word) : Word := s

/-- The real voltage a millivolt code stands for, in volts (R64): `sint(m) / 1000`. -/
def volts (m : Word) : ℚ := (m.toInt : ℚ) / 1000

/-- The raw word of the two bytes of a read phase, first byte high (R31, R70). -/
def assembleRaw (b0 b1 : Byte) : Word := (b0.setWidth 16 <<< 8) ||| b1.setWidth 16

end Sys2Proof.Machine
end

