-- ==== Sys2Proof/Machine/Ops.lean ====
section
/-! DEFINITION. The shared operations of the meanings: register writes, responses (00_scope.md R9), the five bus
primitives (R10, 42_transactions.md R68), READ_WORD step by step (R69), the error responses that stand where
other machines take exceptions (60_exceptions.md R79), and reset (70_reset_and_hazards.md R93). -/

namespace Sys2Proof.Machine

/-- `ADDR <- a` (R14). -/
def State.setAddr (s : State) (a : Addr) : State := { s with addr := a }

/-- `CH <- ch` (R15). -/
def State.setCh (s : State) (ch : Channel) : State := { s with ch := ch }

/-- `UNI <- b` (R16). -/
def State.setUni (s : State) (p : Polarity) : State := { s with uni := p }

/-- `SLP <- b` (R17). -/
def State.setSlp (s : State) (m : SleepMode) : State := { s with slp := m }

/-- PHASE <- p (R21). -/
def State.setPhase (s : State) (p : Phase) : State := { s with phase := p }

/-- HI <- b (R21). -/
def State.setHi (s : State) (b : Byte) : State := { s with hi := b }

/-- A bus primitive is recorded, in issue order (R10). -/
def State.emit (s : State) (e : BusEvent) : State := { s with events := s.events ++ [e] }

def State.setOracle (s : State) (o : Oracle) : State := { s with oracle := o }

/-- A response ends the command and PHASE returns to IDLE (R9, R21, R104). -/
def State.respond (s : State) (r : Response) : State :=
  { s with responses := s.responses ++ [r], phase := .idle }

/-- A command ends with a response and the block goes on (R79). -/
def finish (s : State) (r : Response) : Host.Outcome State Fault Refusal := .next (s.respond r)

/-- An error ends its command by `respond err(E)`: nothing is saved, no mode changes, no handler runs (R79). -/
def finishErr (s : State) (e : ErrorKind) : Host.Outcome State Fault Refusal := finish s (.err e)

/-- An illegal command (30_encoding.md R48). -/
def illegalCommand (s : State) : Host.Outcome State Fault Refusal := finishErr s .illegalCommand

/-- The oracle's next `BusEndTx` answer: the listed ones first, then a free draw (R68; log 6). -/
def Oracle.nextStatus (o : Oracle) : BusStatus × Oracle :=
  match o.statuses with
  | st :: rest => (st, { o with statuses := rest })
  | [] => (Config.busStatus o.draws, { o with draws := o.draws + 1 })

/-- The oracle's next `BusReadByte` answer: the listed ones first, then a free draw (R68; log 6). -/
def Oracle.nextByte (o : Oracle) : Byte × Oracle :=
  match o.bytes with
  | b :: rest => (b, { o with bytes := rest })
  | [] => (Config.busByte o.draws, { o with draws := o.draws + 1 })

/-- `BusBeginTx(a)` (R10). -/
def busBeginTx (a : Addr) (s : State) : State := s.emit (.beginTx a)

/-- `BusWrite(b)` (R10). -/
def busWrite (b : Byte) (s : State) : State := s.emit (.write b)

/-- `BusEndTx()`: a status from the oracle (R10, R68). -/
def busEndTx (s : State) : BusStatus × State :=
  (s.oracle.nextStatus.1, (s.setOracle s.oracle.nextStatus.2).emit (.endTx s.oracle.nextStatus.1))

/-- `BusRequest(a, n)` (R10). -/
def busRequest (a : Addr) (n : Nat) (s : State) : State := s.emit (.request a n)

/-- `BusReadByte()`: a byte from the oracle (R10, R68). -/
def busReadByte (s : State) : Byte × State :=
  (s.oracle.nextByte.1, (s.setOracle s.oracle.nextByte.2).emit (.readByte s.oracle.nextByte.1))

/-- READ_WORD after step 1: the transmission is open (R69). -/
def txOpened (a : Addr) (s : State) : State := busBeginTx a (s.setPhase .tx)

/-- READ_WORD after step 2: the control byte is written (R69). -/
def txWritten (a : Addr) (c : Byte) (s : State) : State := busWrite c (txOpened a s)

/-- READ_WORD after step 3: the transmission is closed and its status known (R69). -/
def txClosed (a : Addr) (c : Byte) (s : State) : BusStatus × State := busEndTx (txWritten a c s)

/-- READ_WORD step 5: `N_RX` = 2 bytes are requested from the same address (R69). -/
def rxRequested (a : Addr) (s : State) : State := busRequest a Config.nRx (s.setPhase .rx)

/-- READ_WORD after the first byte, which HI latches (R21, R69). -/
def rxFirst (a : Addr) (s : State) : State :=
  (busReadByte (rxRequested a s)).2.setHi (busReadByte (rxRequested a s)).1

/-- READ_WORD after the second byte (R69). -/
def rxSecond (a : Addr) (s : State) : Byte × State := busReadByte (rxFirst a s)

/-- READ_WORD(a, c): the two-phase transaction (R69), with the abort of R71 and the assembly of R70. -/
def readWord (a : Addr) (c : Byte) (s : State) : Except TransportError Word × State :=
  match (txClosed a c s).1 with
  | .error e => (.error e, (txClosed a c s).2)
  | .ok =>
    let r := rxSecond a (txClosed a c s).2
    (.ok (assembleRaw r.2.hi r.1), r.2)

/-- The state READ_WORD has reached after `n` bus primitives (R69, R71): where reset can cut it short (R93). -/
def readWordPrefix (n : Nat) (a : Addr) (c : Byte) (s : State) : State :=
  match n with
  | 0 => s.setPhase .tx
  | 1 => txOpened a s
  | 2 => txWritten a c s
  | 3 => (txClosed a c s).2
  | k + 4 =>
    match (txClosed a c s).1 with
    | .error _ => (txClosed a c s).2
    | .ok =>
      match k with
      | 0 => rxRequested a (txClosed a c s).2
      | 1 => rxFirst a (txClosed a c s).2
      | _ => (rxSecond a (txClosed a c s).2).2

/-- What the three reads share (R72, R73, R74): the INIT check, READ_WORD under the control byte of the current
registers, and a response made from the raw word by `f`. -/
def readCommand (f : Word → Word) (s : State) : Host.Outcome State Fault Refusal :=
  if s.init then
    match readWord s.addr s.ctrl s with
    | (.error e, t) => finishErr t (.transport e)
    | (.ok w, t) => finish t (.ok (f w))
  else finishErr s .notInitialized

/-- What the configuration commands share: the register write `g`, then `ok(0x0000)` (40_configuration.md R60). -/
def configCommand (g : State → State) (s : State) : Host.Outcome State Fault Refusal :=
  finish (g (s.setPhase .exec)) (.ok 0x0000)

/-- What the codec commands share: they read and write no state and answer `d` (41_codec.md). -/
def codecCommand (d : Word) (s : State) : Host.Outcome State Fault Refusal :=
  finish (s.setPhase .exec) (.ok d)

/-- Reset (R93): the registers take their values of R28; no bus primitive, no response; what the ports have
already carried stands. -/
def State.applyReset (s : State) : State :=
  { s with
    addr := State.reset.addr, ch := State.reset.ch, uni := State.reset.uni, slp := State.reset.slp
    init := State.reset.init, phase := State.reset.phase, hi := State.reset.hi }

/-- Whether a command is one of the three reads, the only ones with bus primitives (R76). -/
def isRead : Instr → Bool
  | .readRaw => true
  | .read => true
  | .readVoltage => true
  | .begin _ => false
  | .setAddress _ => false
  | .setChannel _ => false
  | .setPolarity _ => false
  | .setSleep _ => false
  | .buildCtrl _ _ _ => false
  | .decodeSigned _ => false
  | .decodeVoltage _ => false

/-- A command in progress (BUSY = 1) after `n` bus primitives, before its response (R21, R93). -/
def inProgress (i : Instr) (n : Nat) (s : State) : State :=
  if isRead i then
    if s.init then readWordPrefix n s.addr s.ctrl s else s
  else s.setPhase .exec

/-- R93: a command that reset abandons gets no response; its bus events up to that point stand. A word that is no
command has nothing in progress. -/
def abandonCommand (w : Command) (n : Nat) (s : State) : State :=
  match decode w with
  | .ok i => (inProgress i n s).applyReset
  | .error _ => s.applyReset

/-- The HOST's next input and the state with it taken (R22). -/
def State.takeInput (s : State) : Option (HostInput × State) :=
  match s.inputs with
  | [] => none
  | x :: rest => some (x, { s with inputs := rest })

end Sys2Proof.Machine
end

