-- ==== Sys2Proof/Machine/Codec.lean ====
section
/-! DEFINITION. The three codec commands (41_codec.md R61 to R67): "pure, stateless transformations". -/

namespace Sys2Proof.Machine

/-- BUILD_CTRL (R61): `respond ok(zext_16(ctrl8))`. -/
def execBuildCtrl (ch : Channel) (p : Polarity) (m : SleepMode) (s : State) : Host.Outcome State Fault Refusal :=
  codecCommand ((controlByte ch p m).setWidth 16) s

/-- DECODE_SIGNED (R62): `respond ok(sext_16(w[15:4]))`. -/
def execDecodeSigned (w : Word) (s : State) : Host.Outcome State Fault Refusal :=
  codecCommand (decodeRaw w) s

/-- DECODE_VOLTAGE (R63): the millivolt code, with no clamping (R67). -/
def execDecodeVoltage (v : Word) (s : State) : Host.Outcome State Fault Refusal :=
  codecCommand (millivolts v) s

end Sys2Proof.Machine
end

