-- ==== Sys2Proof/Machine/Configure.lean ====
section
/-! DEFINITION. The five configuration commands (40_configuration.md R55 to R60). -/

namespace Sys2Proof.Machine

/-- BEGIN (R55): `ADDR <- a; INIT <- 1; respond ok(0x0000)`. -/
def execBegin (a : Addr) (s : State) : Host.Outcome State Fault Refusal :=
  configCommand (fun t => (t.setAddr a).setInit) s

/-- SET_ADDRESS (R56): `ADDR <- a`; INIT is unchanged. -/
def execSetAddress (a : Addr) (s : State) : Host.Outcome State Fault Refusal :=
  configCommand (fun t => t.setAddr a) s

/-- SET_CHANNEL (R57): `CH <- ch`. -/
def execSetChannel (ch : Channel) (s : State) : Host.Outcome State Fault Refusal :=
  configCommand (fun t => t.setCh ch) s

/-- SET_POLARITY (R58): `UNI <- b`. -/
def execSetPolarity (p : Polarity) (s : State) : Host.Outcome State Fault Refusal :=
  configCommand (fun t => t.setUni p) s

/-- SET_SLEEP (R59): `SLP <- b`; the block itself does not sleep (R92). -/
def execSetSleep (m : SleepMode) (s : State) : Host.Outcome State Fault Refusal :=
  configCommand (fun t => t.setSlp m) s

end Sys2Proof.Machine
end

