-- ==== Sys2Proof/Machine/Reads.lean ====
section
/-! DEFINITION. The three read commands (42_transactions.md R72 to R76). -/

namespace Sys2Proof.Machine

/-- READ_RAW (R72): `respond ok(raw16)`. -/
def execReadRaw (s : State) : Host.Outcome State Fault Refusal := readCommand (fun w => w) s

/-- READ (R73): `respond ok(sext_16(raw16[15:4]))`. -/
def execRead (s : State) : Host.Outcome State Fault Refusal := readCommand decodeRaw s

/-- READ_VOLTAGE (R74): the millivolt code of the decoded sample. -/
def execReadVoltage (s : State) : Host.Outcome State Fault Refusal :=
  readCommand (fun w => millivolts (decodeRaw w)) s

end Sys2Proof.Machine
end

