-- ==== Sys2Proof/Machine/Dispatch.lean ====
section
/-! DEFINITION. One arm per command: its meaning (30_encoding.md R43). -/

namespace Sys2Proof.Machine

def exec (i : Instr) (s : State) : Host.Outcome State Fault Refusal :=
  match i with
  | .begin a => Sys2Proof.Machine.execBegin a s
  | .setAddress a => Sys2Proof.Machine.execSetAddress a s
  | .setChannel ch => Sys2Proof.Machine.execSetChannel ch s
  | .setPolarity p => Sys2Proof.Machine.execSetPolarity p s
  | .setSleep m => Sys2Proof.Machine.execSetSleep m s
  | .buildCtrl ch p m => Sys2Proof.Machine.execBuildCtrl ch p m s
  | .decodeSigned w => Sys2Proof.Machine.execDecodeSigned w s
  | .decodeVoltage v => Sys2Proof.Machine.execDecodeVoltage v s
  | .readRaw => Sys2Proof.Machine.execReadRaw s
  | .read => Sys2Proof.Machine.execRead s
  | .readVoltage => Sys2Proof.Machine.execReadVoltage s

end Sys2Proof.Machine
end

