-- ==== Sys2Proof/Machine/Step.lean ====
section
/-! DEFINITION. One step: the block takes the HOST's next input (10_state.md R22, R23). A command runs as one atomic
step from IDLE to IDLE (R21). -/

namespace Sys2Proof.Machine

/-- A command word is checked before anything else, then executed (30_encoding.md R47, R48; 60_exceptions.md R83). -/
def runCommand (w : Command) (s : State) : Host.Outcome State Fault Refusal :=
  match decode w with
  | .ok i => exec i s
  | .error _ => illegalCommand s

/-- One step. With nothing to take the block waits (70_reset_and_hazards.md R94). A command is accepted only while
BUSY = 0 (R22, R98); reset is accepted at any time (R93). -/
def step (s : State) : Host.Outcome State Fault Refusal :=
  match s.takeInput with
  | none => .next s
  | some (.reset, t) => .next t.applyReset
  | some (.command w, t) => if s.busy then .refused .commandWhileBusy else runCommand w t
  | some (.commandThenReset w n, t) => if s.busy then .refused .commandWhileBusy else .next (abandonCommand w n t)

/-- `s` with a table word as the HOST's next command, and the block ready for it. A word that is no 24-bit word
(30_encoding.md R51) gives no command. -/
def State.withFetchWord (s : State) (nbits w : Nat) : State :=
  match tableWord nbits w with
  | some c => { s with inputs := .command c :: s.inputs, phase := .idle }
  | none => s

end Sys2Proof.Machine
end

