-- ==== Sys2Proof/Machine/Asm.lean ====
section
/-! DEFINITION. The assembler of CMD-1 (30_encoding.md R52) and its pseudo-instruction and aliases (R53): source lines as
data, their command words, and the text of a line. -/

namespace Sys2Proof.Asm

/-- The operand of `decode_voltage`: a signed decimal, or a 16-bit hexadecimal pattern (R52). -/
inductive SampleOperand where
  | decimal (n : Int)
  | pattern (n : Int)
  deriving DecidableEq, Repr

/-- A source line (R52, R53). A number is any integer: whether it fits its field is the assembler's check. -/
inductive Line where
  | begin (addr : Int)
  | setAddress (addr : Int)
  | setChannel (ch : Int)
  | setPolarity (p : Polarity)
  | setSleep (m : SleepMode)
  | buildCtrl (ch : Int) (p : Polarity) (m : SleepMode)
  | decodeSigned (w : Int)
  | decodeVoltage (s : SampleOperand)
  | readRaw
  | read
  | readVoltage
  | configure (ch : Int) (p : Polarity) (m : SleepMode)
  | word (n : Int)
  deriving DecidableEq, Repr

/-- The mnemonics and the aliases R52 and R53 accept. -/
def mnemonics : List (String × Opcode) :=
  [("begin", .begin), ("set_address", .setAddress), ("set_channel", .setChannel), ("set_polarity", .setPolarity),
   ("set_polarity_mode", .setPolarity), ("set_sleep", .setSleep), ("set_sleep_mode", .setSleep)]
  ++ [("build_ctrl", .buildCtrl), ("build_control_byte", .buildCtrl), ("decode_signed", .decodeSigned),
      ("decode_raw_to_signed", .decodeSigned), ("decode_voltage", .decodeVoltage),
      ("decode_signed_to_voltage", .decodeVoltage)]
  ++ [("read_raw", .readRaw), ("read", .read), ("read_voltage", .readVoltage)]

/-- The row a mnemonic or alias names. -/
def opcodeOfName (name : String) : Option Opcode := (mnemonics.find? (·.1 == name)).map (·.2)

/-- "An operand that does not fit its field is an assembly error. It does not wrap." (R52) -/
def unsignedField (width : Nat) (n : Int) : Option (BitVec width) :=
  if 0 ≤ n ∧ n < 2 ^ width then some (BitVec.ofInt width n) else none

/-- "A signed decimal operand is encoded as its 16-bit two's-complement pattern." (R52) -/
def sampleField : SampleOperand → Option Word
  | .decimal n => if -32768 ≤ n ∧ n ≤ 32767 then some (BitVec.ofInt 16 n) else none
  | .pattern n => unsignedField 16 n

/-- `addr`: a 7-bit number that "must be in ADDR_VALID" (R52). -/
def addrOperand (n : Int) : Option Addr :=
  match unsignedField 7 n with
  | some a => if Config.legalAddr a then some a else none
  | none => none

/-- `configure` stands for three commands, in this order (R53). -/
def configure (ch : Channel) (p : Polarity) (m : SleepMode) : List Instr :=
  [.setChannel ch, .setPolarity p, .setSleep m]

/-- The commands of a source line; `none` is an assembly error, and a raw word is no command here (R52, R53). -/
def commands : Line → Option (List Instr)
  | .begin n => (addrOperand n).map fun a => [.begin a]
  | .setAddress n => (addrOperand n).map fun a => [.setAddress a]
  | .setChannel n => (unsignedField 4 n).map fun ch => [.setChannel ch]
  | .setPolarity p => some [.setPolarity p]
  | .setSleep m => some [.setSleep m]
  | .buildCtrl n p m => (unsignedField 4 n).map fun ch => [.buildCtrl ch p m]
  | .decodeSigned n => (unsignedField 16 n).map fun w => [.decodeSigned w]
  | .decodeVoltage v => (sampleField v).map fun s => [.decodeVoltage s]
  | .readRaw => some [.readRaw]
  | .read => some [.read]
  | .readVoltage => some [.readVoltage]
  | .configure n p m => (unsignedField 4 n).map fun ch => configure ch p m
  | .word _ => none

/-- The command words of a source line (R52); `.word` gives any 24-bit word, legal or not. -/
def assemble (l : Line) : Option (List Command) :=
  match l with
  | .word n => (unsignedField 24 n).map fun w => [w]
  | _ => (commands l).map (·.map encode)

/-! The text of a source line (R52) -/

/-- A number as it is written: "Numbers are decimal or `0x` hexadecimal." -/
inductive Number where
  | decimal (n : Int)
  | hex (n : Nat)
  deriving DecidableEq, Repr

def Number.value : Number → Int
  | .decimal n => n
  | .hex n => n

/-- A digit of a base up to 16. -/
def digit (base : Nat) (c : Char) : Option Nat :=
  let v := if '0' ≤ c ∧ c ≤ '9' then c.toNat - '0'.toNat
    else if 'a' ≤ c ∧ c ≤ 'f' then c.toNat - 'a'.toNat + 10
    else if 'A' ≤ c ∧ c ≤ 'F' then c.toNat - 'A'.toNat + 10
    else 16
  if v < base then some v else none

/-- Digits, most significant first, after the value read so far. -/
def digits (base : Nat) : Nat → List Char → Option Nat
  | acc, [] => some acc
  | acc, c :: cs =>
    match digit base c with
    | some d => digits base (acc * base + d) cs
    | none => none

/-- Unsigned digits, of which there is at least one. -/
def someDigits (base : Nat) (cs : List Char) : Option Nat := if cs = [] then none else digits base 0 cs

/-- A number token. -/
def number : List Char → Option Number
  | '0' :: 'x' :: cs => (someDigits 16 cs).map .hex
  | '-' :: cs => (someDigits 10 cs).map fun n => .decimal (-(n : Int))
  | cs => (someDigits 10 cs).map fun n => .decimal (n : Int)

/-- The line without its comment: a semicolon starts one (R52). -/
def stripComment (cs : List Char) : List Char := cs.takeWhile (· != ';')

/-- Tokens: blanks, tabs and commas separate them (log 17). -/
def tokensFrom : List Char → List Char → List (List Char)
  | cur, [] => if cur = [] then [] else [cur]
  | cur, c :: cs =>
    if c = ' ' ∨ c = '\t' ∨ c = ',' then
      if cur = [] then tokensFrom [] cs else cur :: tokensFrom [] cs
    else tokensFrom (cur ++ [c]) cs

def tokens (line : String) : List (List Char) := tokensFrom [] (stripComment line.toList)

/-- `unipolar | bipolar` (R52). -/
def polarityName (cs : List Char) : Option Polarity :=
  if cs = "unipolar".toList then some .unipolar else if cs = "bipolar".toList then some .bipolar else none

/-- `sleep | wake` (R52). -/
def sleepName (cs : List Char) : Option SleepMode :=
  if cs = "sleep".toList then some .sleep else if cs = "wake".toList then some .wake else none

/-- `s: signed decimal -32768..32767, or a 16-bit hex pattern` (R52). -/
def sampleOperand : Number → SampleOperand
  | .decimal n => .decimal n
  | .hex n => .pattern n

/-- A line with one operand. -/
def lineOne (op : Opcode) (x : List Char) : Option Line :=
  match op with
  | .begin => (number x).map fun n => .begin n.value
  | .setAddress => (number x).map fun n => .setAddress n.value
  | .setChannel => (number x).map fun n => .setChannel n.value
  | .setPolarity => (polarityName x).map .setPolarity
  | .setSleep => (sleepName x).map .setSleep
  | .decodeSigned => (number x).map fun n => .decodeSigned n.value
  | .decodeVoltage => (number x).map fun n => .decodeVoltage (sampleOperand n)
  | .buildCtrl => none
  | .readRaw => none
  | .read => none
  | .readVoltage => none

/-- A line without an operand. -/
def lineNone (op : Opcode) : Option Line :=
  match op with
  | .readRaw => some .readRaw
  | .read => some .read
  | .readVoltage => some .readVoltage
  | .begin => none
  | .setAddress => none
  | .setChannel => none
  | .setPolarity => none
  | .setSleep => none
  | .buildCtrl => none
  | .decodeSigned => none
  | .decodeVoltage => none

/-- The three operands of `build_ctrl` and `configure` (R52, R53). -/
def lineThree (name x y z : List Char) : Option Line :=
  match number x, polarityName y, sleepName z with
  | some n, some p, some m =>
    if name = "configure".toList then some (.configure n.value p m)
    else if opcodeOfName (String.ofList name) = some .buildCtrl then some (.buildCtrl n.value p m)
    else none
  | _, _, _ => none

/-- The source line of its tokens; `none` is an assembly error. -/
def parse : List (List Char) → Option Line
  | [name] => (opcodeOfName (String.ofList name)).bind lineNone
  | [name, x] =>
    if name = ".word".toList then (number x).map fun n => .word n.value
    else (opcodeOfName (String.ofList name)).bind fun op => lineOne op x
  | [name, x, y, z] => lineThree name x y z
  | _ => none

/-- The command words of a line of text: none for an empty line or a comment, `none` for an assembly error (R52). -/
def assembleText (line : String) : Option (List Command) :=
  match tokens line with
  | [] => some []
  | ts => (parse ts).bind assemble

end Sys2Proof.Asm
end

