-- ==== Sys2Proof/Safety.lean ====
section
/-! DEFINITION. The terms the claims are stated in: the invariant of the block, what a command may show on its two
output ports (42_transactions.md R76), and when two states cannot be told apart (10_state.md R14, R21). -/

namespace Sys2Proof.Machine

/-- `s` with a command word next on the command port (R22). -/
def State.offer (s : State) (w : Command) : State := { s with inputs := .command w :: s.inputs }

/-- `s` with reset as the HOST's next input (R93). -/
def State.offerReset (s : State) : State := { s with inputs := .reset :: s.inputs }

/-- `s` with a command next that reset cuts short after `n` bus primitives (R93). -/
def State.offerThenReset (s : State) (w : Command) (n : Nat) : State :=
  { s with inputs := .commandThenReset w n :: s.inputs }

/-- The five fields of the architectural tuple of R13. -/
structure Registers where
  addr : Addr
  ch : Channel
  uni : Polarity
  slp : SleepMode
  init : Bool
  deriving DecidableEq, Repr

def State.registers (s : State) : Registers :=
  { addr := s.addr, ch := s.ch, uni := s.uni, slp := s.slp, init := s.init }

/-- Between commands the block is IDLE (R21), and once it is initialised ADDR is a member of `ADDR_VALID`
(R14, R30; before that ADDR is unspecified). -/
def State.Inv (s : State) : Prop :=
  s.phase = .idle ∧ (s.init = true → s.addr ∈ Config.addrValid)

/-- The events of a read taken in `s` with INIT = 1, under the oracle's answers (R76 cases R-b and R-c). -/
def State.readEvents (s : State) : List BusEvent :=
  [.beginTx s.addr, .write s.ctrl, .endTx s.oracle.nextStatus.1] ++
    match s.oracle.nextStatus.1 with
    | .error _ => []
    | .ok =>
      [.request s.addr 2, .readByte s.oracle.nextStatus.2.nextByte.1,
       .readByte s.oracle.nextStatus.2.nextByte.2.nextByte.1]

/-- What one command taken in `s` may show: its response and its bus events (R44, R76, R80). -/
inductive Observation (s : State) : Response → List BusEvent → Prop where
  /-- No bus event: an answer, or an error that is not the transport's. -/
  | quiet (r : Response) (h : ∀ e, r ≠ .err (.transport e)) : Observation s r []
  /-- R76 R-b: the write phase failed, and its status is the response. -/
  | aborted (e : TransportError) :
      Observation s (.err (.transport e)) [.beginTx s.addr, .write s.ctrl, .endTx (.error e)]
  /-- R76 R-c: both phases, and the data is made of both bytes. -/
  | completed (b0 b1 : Byte) (d : Word) (h : d = assembleRaw b0 b1 ∨ d = (assembleRaw b0 b1).sshiftRight 4) :
      Observation s (.ok d)
        [.beginTx s.addr, .write s.ctrl, .endTx .ok, .request s.addr 2, .readByte b0, .readByte b1]

/-- Two states that differ at most in HI, and in ADDR as long as INIT = 0. -/
def Alike (s t : State) : Prop :=
  t = { s with addr := t.addr, hi := t.hi } ∧ (s.init = true → t.addr = s.addr)

/-- Two outcomes a HOST cannot tell apart: next states that are `Alike`, or the same refusal. -/
def AlikeOutcome : Host.Outcome State Fault Refusal → Host.Outcome State Fault Refusal → Prop
  | .next s, .next t => Alike s t
  | .refused r, .refused q => r = q
  | .next _, .refused _ => False
  | .refused _, .next _ => False
  | .fault _, _ => False
  | _, .fault _ => False

/-- The five configuration commands (R60). -/
def isConfig : Instr → Bool
  | .begin _ => true
  | .setAddress _ => true
  | .setChannel _ => true
  | .setPolarity _ => true
  | .setSleep _ => true
  | .buildCtrl _ _ _ => false
  | .decodeSigned _ => false
  | .decodeVoltage _ => false
  | .readRaw => false
  | .read => false
  | .readVoltage => false

/-- What a read makes of its raw word: `f` of R76. -/
def readResult : Instr → Word → Word
  | .read, w => decodeRaw w
  | .readVoltage, w => millivolts (decodeRaw w)
  | _, w => w

end Sys2Proof.Machine
end

