-- ==== Sys2Proof/Certificates/Slice0/Obligations.lean ====
section
/-! DEFINITION. The statements for the provers. Each docstring names the rule of spec/ it formalises. A statement holds
for every answer of the bus oracle: the oracle of the state is universally quantified. -/

open Sys2Proof Sys2Proof.Machine

/-! ## Reset, fetching, illegal words -/

/-- R28: the reset value of each piece of state; of ADDR and HI, which R28 leaves unspecified, nothing is said. -/
def Obligations.ResetValues : Prop :=
  State.reset.init = false ∧ State.reset.phase = .idle ∧ State.reset.busy = false ∧
  State.reset.ch = Config.resetCfg.ch ∧ State.reset.uni = Config.resetCfg.uni ∧
  State.reset.slp = Config.resetCfg.slp

/-- R93: reset, whatever the block is doing (BUSY or not). The registers take the values of R28; the bus events so far
stand and nothing further is sent; there is no response, so a command in progress gets none. Nothing is said of ADDR and
HI, which R93 leaves unspecified. -/
def Obligations.ResetAtAnyTime : Prop :=
  ∀ s : State, ∃ t, step s.offerReset = .next t ∧
    t.init = false ∧ t.phase = .idle ∧ t.busy = false ∧ t.ch = Config.resetCfg.ch ∧
    t.uni = Config.resetCfg.uni ∧ t.slp = Config.resetCfg.slp ∧
    t.responses = s.responses ∧ t.events = s.events ∧ t.inputs = s.inputs

/-- The model's form of R93's abandoned command: a word that reset cuts short after `n` bus primitives (log 11). A read
with INIT = 1 has sent exactly the first `n` of its events, and all of them if `n` is above their number (log 11); any other
word, among them a read with INIT = 0 and an illegal word, which are never BUSY (log 19), has sent none. -/
def Obligations.ResetInsideACommand : Prop :=
  ∀ (s : State) (w : Command) (n : Nat), s.phase = .idle → ∃ t, step (s.offerThenReset w n) = .next t ∧
    t.init = false ∧ t.phase = .idle ∧ t.busy = false ∧ t.ch = Config.resetCfg.ch ∧
    t.uni = Config.resetCfg.uni ∧ t.slp = Config.resetCfg.slp ∧
    t.responses = s.responses ∧ t.inputs = s.inputs ∧
    t.events = s.events ++
      (if (decode w = .ok .readRaw ∨ decode w = .ok .read ∨ decode w = .ok .readVoltage) ∧ s.init = true
       then s.readEvents.take n else [])

/-- R94: after reset the block waits with BUSY = 0; with nothing on the command port a step changes nothing. That nothing
is pending right after reset is the model's choice (log 7). -/
def Obligations.WaitsForACommand : Prop :=
  State.reset.busy = false ∧ step State.reset = .next State.reset ∧
  ∀ s : State, s.inputs = [] → step s = .next s

/-- The bridge from the per-command statements to a run (R22, R47): while BUSY = 0 a step takes the next word off the
command port and runs the command it decodes to. -/
def Obligations.StepRunsTheDecodedCommand : Prop :=
  ∀ (s : State) (w : Command) (i : Instr), s.phase = .idle → decode w = .ok i →
    step (s.offer w) = exec i s

/-- The model's choice for U9 and R98 (log 10): a command presented while BUSY = 1 is refused by name. -/
def Obligations.BusyBlockTakesNoCommand : Prop :=
  ∀ (s : State) (w : Command) (n : Nat), s.phase ≠ .idle →
    step (s.offer w) = .refused .commandWhileBusy ∧
    step (s.offerThenReset w n) = .refused .commandWhileBusy

/-- R48: an illegal word answers err(ILLEGAL_COMMAND), writes no state and issues no bus primitive, INIT or not. -/
def Obligations.IllegalWordOnlyAnswers : Prop :=
  ∀ (s : State) (w : Command) (e : DecodeError), s.phase = .idle → decode w = .error e →
    step (s.offer w) =
      .next { s with phase := .idle, responses := s.responses ++ [.err .illegalCommand] }

/-! ## Encoding -/

/-- R43: the eleven rows; no word matches two of them; a word whose OP is in none of them is illegal. -/
def Obligations.OpcodeMapWithoutOverlap : Prop :=
  (∀ (w : Command) (r : OpRow), findRow w = some r ↔ r ∈ opTable ∧ w &&& r.mask = r.matchBits) ∧
  (∀ (w : Command) (r q : OpRow), r ∈ opTable → q ∈ opTable →
    w &&& r.mask = r.matchBits → w &&& q.mask = q.matchBits → r = q) ∧
  (∀ w : Command,
    w.extractLsb' 16 8 ∉ ([0x01, 0x02, 0x03, 0x04, 0x05, 0x10, 0x11, 0x12, 0x20, 0x21, 0x22] : List Byte) →
    ∃ e, decode w = .error e) ∧
  (∀ (op : Opcode) (m k : Command), (⟨op, m, k⟩ : OpRow) ∈ opTable ↔
    (op, m, k) ∈
      ([(.begin, 0x010000, 0xFFFF80), (.setAddress, 0x020000, 0xFFFF80), (.setChannel, 0x030000, 0xFFFFF0),
        (.setPolarity, 0x040000, 0xFFFFFE), (.setSleep, 0x050000, 0xFFFFFE), (.buildCtrl, 0x100000, 0xFFFFC0),
        (.decodeSigned, 0x110000, 0xFF0000), (.decodeVoltage, 0x120000, 0xFF0000), (.readRaw, 0x200000, 0xFFFFFF),
        (.read, 0x210000, 0xFFFFFF), (.readVoltage, 0x220000, 0xFFFFFF)] : List (Opcode × Command × Command)))

/-- The reasons the decoder names for an illegal word; the names are the model's choice (log 16), the block answers them all
alike (R48). An unlisted OP; a listed OP with a reserved operand bit set; a format A row with an address outside
ADDR_VALID. -/
def Obligations.ReasonsOfIllegalWords : Prop :=
  (∀ w : Command, decode w = .error .reservedOpcode ↔ ∀ r ∈ opTable, w.extractLsb' 16 8 ≠ r.op.op) ∧
  (∀ w : Command, decode w = .error .reservedBits ↔
    (∃ r ∈ opTable, w.extractLsb' 16 8 = r.op.op) ∧ ∀ r ∈ opTable, w &&& r.mask ≠ r.matchBits) ∧
  (∀ w : Command, decode w = .error .addressNotValid ↔
    ∃ r ∈ opTable, w &&& r.mask = r.matchBits ∧ (r.op = .begin ∨ r.op = .setAddress) ∧
      w.extractLsb' 0 7 ∉ Config.addrValid)

/-- R47: a word is legal exactly when it matches a row and, in format A, its address is in ADDR_VALID; the decoded
command is that row's. -/
def Obligations.DecoderAcceptsExactlyTheLegalWords : Prop :=
  ∀ (w : Command) (op : Opcode),
    (∃ i, decode w = .ok i ∧ i.opcode = op) ↔
    ∃ r ∈ opTable, r.op = op ∧ w &&& r.mask = r.matchBits ∧
      ((op = .begin ∨ op = .setAddress) → w.extractLsb' 0 7 ∈ Config.addrValid)

/-- R41, R42, R43: every well-formed command, at every operand value, is read back from its own word. -/
def Obligations.DecodeOfEncode : Prop :=
  ∀ i : Instr, i.wellFormed = true → decode (encode i) = .ok i

/-- R42, R47: every word has one meaning: a legal word is the encoding of the command it decodes to, and that
command is well formed. -/
def Obligations.EncodeOfDecode : Prop :=
  ∀ (w : Command) (i : Instr), decode w = .ok i → encode i = w ∧ i.wellFormed = true

/-- 95_test_vectors.md V-ENC, in part: words written out from the spec decode to the commands they stand for.
The reasons of the three illegal words are the model's names (log 16). -/
def Obligations.SampleWordsDecode : Prop :=
  decode 0x01006B = .ok (.begin 0x6B) ∧ decode 0x02006B = .ok (.setAddress 0x6B) ∧
  decode 0x03000F = .ok (.setChannel 0xF) ∧ decode 0x040001 = .ok (.setPolarity .unipolar) ∧
  decode 0x050000 = .ok (.setSleep .wake) ∧ decode 0x10001C = .ok (.buildCtrl 0xC .unipolar .wake) ∧
  decode 0x11FFF0 = .ok (.decodeSigned 0xFFF0) ∧ decode 0x12F800 = .ok (.decodeVoltage 0xF800) ∧
  decode 0x200000 = .ok .readRaw ∧ decode 0x210000 = .ok .read ∧ decode 0x220000 = .ok .readVoltage ∧
  decode 0x01007F = .error .addressNotValid ∧ decode 0x0100EB = .error .reservedBits ∧
  decode 0x06006B = .error .reservedOpcode

/-- R30: ADDR_VALID has ten members, nine strap addresses and 0x6B, whatever the nine are; they lie in 0x08..0x77
(92_eei_decisions.md D7), and the decoder's legality test is membership. -/
def Obligations.AddressSetHasTenMembers : Prop :=
  Config.addrValid.length = 10 ∧ Config.addrValid.Nodup ∧ (0x6B : Addr) ∈ Config.addrValid ∧
  Config.strapAddrs.length = 9 ∧ (0x6B : Addr) ∉ Config.strapAddrs ∧
  (∀ a ∈ Config.addrValid, 0x08 ≤ a.toNat ∧ a.toNat ≤ 0x77) ∧
  (∀ a, Config.legalAddr a = true ↔ a ∈ Config.addrValid)

/-! ## Configuration commands: result, frame, and the legality of every operand -/

/-- R55: BEGIN. ADDR and INIT are written, the answer is ok(0), all else is unchanged; every operand value is covered. -/
def Obligations.BeginSetsAddressAndInit : Prop :=
  (∀ (s : State) (a : Addr), a ∈ Config.addrValid →
    exec (.begin a) s =
      .next { s with addr := a, init := true, phase := .idle, responses := s.responses ++ [.ok 0x0000] }) ∧
  (∀ (s : State) (x : Word), s.phase = .idle →
    step (s.offer (commandWord 0x01 x)) =
      if x.extractLsb' 7 9 = 0 ∧ x.extractLsb' 0 7 ∈ Config.addrValid then
        .next { s with addr := x.extractLsb' 0 7, init := true, responses := s.responses ++ [.ok 0x0000] }
      else .next { s with responses := s.responses ++ [.err .illegalCommand] })

/-- R56: SET_ADDRESS. Only ADDR is written; INIT is unchanged. -/
def Obligations.SetAddressSetsAddress : Prop :=
  (∀ (s : State) (a : Addr), a ∈ Config.addrValid →
    exec (.setAddress a) s =
      .next { s with addr := a, phase := .idle, responses := s.responses ++ [.ok 0x0000] }) ∧
  (∀ (s : State) (x : Word), s.phase = .idle →
    step (s.offer (commandWord 0x02 x)) =
      if x.extractLsb' 7 9 = 0 ∧ x.extractLsb' 0 7 ∈ Config.addrValid then
        .next { s with addr := x.extractLsb' 0 7, responses := s.responses ++ [.ok 0x0000] }
      else .next { s with responses := s.responses ++ [.err .illegalCommand] })

/-- R57: SET_CHANNEL. Only CH is written; it is illegal only when OPND[15:4] is not zero. -/
def Obligations.SetChannelSetsChannel : Prop :=
  (∀ (s : State) (c : Channel),
    exec (.setChannel c) s =
      .next { s with ch := c, phase := .idle, responses := s.responses ++ [.ok 0x0000] }) ∧
  (∀ (s : State) (x : Word), s.phase = .idle →
    step (s.offer (commandWord 0x03 x)) =
      if x.extractLsb' 4 12 = 0 then
        .next { s with ch := x.extractLsb' 0 4, responses := s.responses ++ [.ok 0x0000] }
      else .next { s with responses := s.responses ++ [.err .illegalCommand] })

/-- R58: SET_POLARITY. Only UNI is written (1 = unipolar, 0 = bipolar); illegal only when OPND[15:1] is not zero; of the
control byte it changes bit 3 only. -/
def Obligations.SetPolaritySetsPolarity : Prop :=
  (∀ (s : State) (p : Polarity),
    exec (.setPolarity p) s =
      .next { s with uni := p, phase := .idle, responses := s.responses ++ [.ok 0x0000] }) ∧
  (∀ (s : State) (x : Word), s.phase = .idle →
    step (s.offer (commandWord 0x04 x)) =
      if x.extractLsb' 1 15 = 0 then
        .next { s with uni := if x.getLsbD 0 then .unipolar else .bipolar,
                       responses := s.responses ++ [.ok 0x0000] }
      else .next { s with responses := s.responses ++ [.err .illegalCommand] }) ∧
  (∀ (s t : State) (p : Polarity), exec (.setPolarity p) s = .next t →
    t.ctrl.getLsbD 3 = decide (p = .unipolar) ∧ ∀ k, k ≠ 3 → t.ctrl.getLsbD k = s.ctrl.getLsbD k)

/-- R59: SET_SLEEP. Only SLP is written (1 = sleep, 0 = wake); illegal only when OPND[15:1] is not zero; of the control
byte it changes bit 2 only. -/
def Obligations.SetSleepSetsSleep : Prop :=
  (∀ (s : State) (m : SleepMode),
    exec (.setSleep m) s =
      .next { s with slp := m, phase := .idle, responses := s.responses ++ [.ok 0x0000] }) ∧
  (∀ (s : State) (x : Word), s.phase = .idle →
    step (s.offer (commandWord 0x05 x)) =
      if x.extractLsb' 1 15 = 0 then
        .next { s with slp := if x.getLsbD 0 then .sleep else .wake,
                       responses := s.responses ++ [.ok 0x0000] }
      else .next { s with responses := s.responses ++ [.err .illegalCommand] }) ∧
  (∀ (s t : State) (m : SleepMode), exec (.setSleep m) s = .next t →
    t.ctrl.getLsbD 2 = decide (m = .sleep) ∧ ∀ k, k ≠ 2 → t.ctrl.getLsbD k = s.ctrl.getLsbD k)

/-- R60: the five properties common to the configuration commands: no bus traffic, deferred effect (the new fields
travel in the control byte of the next read, and not before), idempotence, disjointness, totality. -/
def Obligations.ConfigurationCommandProperties : Prop :=
  ∀ (i : Instr) (s : State), isConfig i = true →
    (∃ t, exec i s = .next t ∧ t.responses = s.responses ++ [.ok 0x0000]) ∧
    ∀ t, exec i s = .next t →
      t.events = s.events ∧
      (∀ (j : Instr) (u : State), isRead j = true → t.init = true → exec j t = .next u →
        ∃ rest, u.events = s.events ++ [.beginTx t.addr, .write (controlByte t.ch t.uni t.slp)] ++ rest) ∧
      (∀ u, exec i t = .next u → u.registers = t.registers ∧ u.ctrl = t.ctrl) ∧
      (t.addr = s.addr ∨ (∃ a, i = .begin a) ∨ ∃ a, i = .setAddress a) ∧
      (t.ch = s.ch ∨ ∃ c, i = .setChannel c) ∧ (t.uni = s.uni ∨ ∃ p, i = .setPolarity p) ∧
      (t.slp = s.slp ∨ ∃ m, i = .setSleep m) ∧ (t.init = s.init ∨ ∃ a, i = .begin a)

/-- R53: `configure` is set_channel, set_polarity, set_sleep; run in any order they leave the same registers. -/
def Obligations.ConfigureInAnyOrder : Prop :=
  ∀ (c : Channel) (p : Polarity) (m : SleepMode) (is : List Instr) (s : State) (rest : List HostInput),
    is.Perm (Asm.configure c p m) → s.phase = .idle →
    s.inputs = (is.map fun i => HostInput.command (encode i)) ++ rest →
    core.run 3 s = .next { s with
      ch := c, uni := p, slp := m, inputs := rest, responses := s.responses ++ [.ok 0, .ok 0, .ok 0] }

/-! ## Codec commands -/

/-- R18, R49: the control byte of the registers, bit by bit; bits 1..0 are zero. All 64 bytes with zero bits 1..0 are
control bytes, no others are, and distinct fields give distinct bytes. It is the byte every read sends in its write
phase, computed from the registers as the read is taken. -/
def Obligations.ControlByteFormat : Prop :=
  (∀ s : State, s.ctrl.extractLsb' 4 4 = s.ch ∧ s.ctrl.getLsbD 3 = decide (s.uni = .unipolar) ∧
    s.ctrl.getLsbD 2 = decide (s.slp = .sleep) ∧ s.ctrl.extractLsb' 0 2 = 0) ∧
  (∀ b : Byte, (∃ c p m, controlByte c p m = b) ↔ b.extractLsb' 0 2 = 0) ∧
  (∀ c p m c' p' m', controlByte c p m = controlByte c' p' m' → c = c' ∧ p = p' ∧ m = m') ∧
  (∀ (i : Instr) (s : State), isRead i = true → s.init = true →
    ∃ t rest, exec i s = .next t ∧ t.events = s.events ++ [.beginTx s.addr, .write s.ctrl] ++ rest)

/-- R61: BUILD_CTRL answers the control byte of its operands, zero-extended, and changes nothing; it is illegal only
when OPND[15:6] is not zero. -/
def Obligations.BuildCtrlAnswersControlByte : Prop :=
  (∀ (s : State) (c : Channel) (p : Polarity) (m : SleepMode), ∃ d : Word,
    exec (.buildCtrl c p m) s = .next { s with phase := .idle, responses := s.responses ++ [.ok d] } ∧
    d.extractLsb' 8 8 = 0 ∧ d.extractLsb' 4 4 = c ∧ d.getLsbD 3 = decide (p = .unipolar) ∧
    d.getLsbD 2 = decide (m = .sleep) ∧ d.extractLsb' 0 2 = 0) ∧
  (∀ (s : State) (x : Word), s.phase = .idle →
    step (s.offer (commandWord 0x10 x)) =
      if x.extractLsb' 6 10 = 0 then
        .next { s with responses := s.responses ++
          [.ok (((x.extractLsb' 0 4).setWidth 16 <<< 4) ||| ((x.extractLsb' 4 1).setWidth 16 <<< 3)
            ||| ((x.extractLsb' 5 1).setWidth 16 <<< 2))] }
      else .next { s with responses := s.responses ++ [.err .illegalCommand] })

/-- R62: DECODE_SIGNED answers the sign extension of w[15:4], which is the arithmetic shift right by 4; w[3:0] never
matters; the result lies in -2048..2047 and its bits 15..11 are copies of w[15]; every word with OP 0x11 is legal. -/
def Obligations.DecodeSignedSignExtends : Prop :=
  (∀ (s : State) (w : Word),
    exec (.decodeSigned w) s =
      .next { s with phase := .idle, responses := s.responses ++ [.ok ((w.extractLsb' 4 12).signExtend 16)] }) ∧
  (∀ (s : State) (w : Word), s.phase = .idle →
    step (s.offer (commandWord 0x11 w)) =
      .next { s with responses := s.responses ++ [.ok (w.sshiftRight 4)] }) ∧
  (∀ w v : Word, w.extractLsb' 4 12 = v.extractLsb' 4 12 → decodeRaw w = decodeRaw v) ∧
  (∀ w : Word, -2048 ≤ (decodeRaw w).toInt ∧ (decodeRaw w).toInt ≤ 2047 ∧
    ∀ k, 11 ≤ k → k ≤ 15 → (decodeRaw w).getLsbD k = w.getLsbD 15)

/-- R63: DECODE_VOLTAGE answers the millivolt code, the sample itself, for every 16-bit sample; its value in millivolts
is sint(s) * FULL_SCALE / 4096 exactly. -/
def Obligations.DecodeVoltageScalesExactly : Prop :=
  (∀ (s : State) (v : Word),
    exec (.decodeVoltage v) s = .next { s with phase := .idle, responses := s.responses ++ [.ok v] }) ∧
  (∀ (s : State) (v : Word), s.phase = .idle →
    step (s.offer (commandWord 0x12 v)) = .next { s with responses := s.responses ++ [.ok v] }) ∧
  (∀ v : Word, volts (millivolts v) = (v.toInt : ℚ) * (4096 / 1000) / 4096)

/-- R64: every result fits its destination exactly, the voltage of a decoded word is its sample in millivolts, and it
lies in -2.048..+2.047 V. -/
def Obligations.CodecArithmeticLaws : Prop :=
  Config.fullScale = 4096 / 1000 ∧ Config.lsb = 1 / 1000 ∧
  (∀ c p m, (controlByte c p m).toNat ≤ 0xFC) ∧
  (∀ w : Word, (decodeRaw w).toInt = (w.extractLsb' 4 12).toInt ∧
    -2048 ≤ (decodeRaw w).toInt ∧ (decodeRaw w).toInt ≤ 2047 ∧
    (millivolts (decodeRaw w)).toInt = ((w.extractLsb' 4 12).signExtend 16).toInt) ∧
  (∀ v : Word, millivolts v = v ∧ volts v = (v.toInt : ℚ) / 1000) ∧
  (∀ w : Word, -(2048 : ℚ) / 1000 ≤ volts (millivolts (decodeRaw w)) ∧
    volts (millivolts (decodeRaw w)) ≤ 2047 / 1000)

/-- R65: for the same BUS answers, what a command answers does not depend on UNI, SLP, CH or ADDR, and raw[15:4] is always
read as two's complement, by DECODE_SIGNED and inside READ and READ_VOLTAGE. That the oracle gives both states the same
answers is the model's choice (log 6): R68 lets an answer depend on the address and the byte written. -/
def Obligations.DecodingIgnoresTheMode : Prop :=
  ∀ (i : Instr) (s : State) (a : Addr) (c : Channel) (p : Polarity) (m : SleepMode),
    ∃ t u r, exec i s = .next t ∧ exec i { s with addr := a, ch := c, uni := p, slp := m } = .next u ∧
      t.responses = s.responses ++ [r] ∧ u.responses = s.responses ++ [r] ∧
      (∀ w, i = .decodeSigned w → r = .ok ((w.extractLsb' 4 12).signExtend 16)) ∧
      (∀ (o o1 o2 : Oracle) (b0 b1 : Byte) (raw : Word), i = .read ∨ i = .readVoltage → s.init = true →
        s.oracle.nextStatus = (.ok, o) → o.nextByte = (b0, o1) → o1.nextByte = (b1, o2) →
        raw = (b0.setWidth 16 <<< 8) ||| b1.setWidth 16 → r = .ok ((raw.extractLsb' 4 12).signExtend 16))

/-! ## Reads -/

/-- R69: READ_WORD step by step, with R70's assembly of both bytes and R71's abort. -/
def Obligations.ReadWordFollowsTheFiveSteps : Prop :=
  (∀ (a : Addr) (c : Byte) (s : State) (e : TransportError) (o : Oracle), s.oracle.nextStatus = (.error e, o) →
    ∃ t, readWord a c s = (.error e, t) ∧ t.oracle = o ∧ t.registers = s.registers ∧
      t.responses = s.responses ∧ t.events = s.events ++ [.beginTx a, .write c, .endTx (.error e)]) ∧
  (∀ (a : Addr) (c : Byte) (s : State) (o o1 o2 : Oracle) (b0 b1 : Byte), s.oracle.nextStatus = (.ok, o) →
    o.nextByte = (b0, o1) → o1.nextByte = (b1, o2) →
    ∃ t, readWord a c s = (.ok ((b0.setWidth 16 <<< 8) ||| b1.setWidth 16), t) ∧ t.oracle = o2 ∧
      t.registers = s.registers ∧ t.responses = s.responses ∧
      t.events = s.events ++ [.beginTx a, .write c, .endTx .ok, .request a 2, .readByte b0, .readByte b1])

/-- R70: the first byte is raw[15:8] and the second raw[7:0]; neither is dropped. -/
def Obligations.RawWordKeepsBothBytes : Prop :=
  ∀ b0 b1 : Byte, (assembleRaw b0 b1).extractLsb' 8 8 = b0 ∧ (assembleRaw b0 b1).extractLsb' 0 8 = b1

/-- R72: READ_RAW in its three cases, and the legality of every operand. -/
def Obligations.ReadRawAnswersRawWord : Prop :=
  (∀ s : State, s.init = false →
    exec .readRaw s = .next { s with phase := .idle, responses := s.responses ++ [.err .notInitialized] }) ∧
  (∀ (s : State) (e : TransportError) (o : Oracle), s.init = true → s.oracle.nextStatus = (.error e, o) →
    exec .readRaw s = .next { s with
      phase := .idle, oracle := o, responses := s.responses ++ [.err (.transport e)],
      events := s.events ++ [.beginTx s.addr, .write (controlByte s.ch s.uni s.slp), .endTx (.error e)] }) ∧
  (∀ (s : State) (o o1 o2 : Oracle) (b0 b1 : Byte), s.init = true → s.oracle.nextStatus = (.ok, o) →
    o.nextByte = (b0, o1) → o1.nextByte = (b1, o2) →
    ∃ h, exec .readRaw s = .next { s with
      phase := .idle, hi := h, oracle := o2,
      responses := s.responses ++ [.ok ((b0.setWidth 16 <<< 8) ||| b1.setWidth 16)],
      events := s.events ++ [.beginTx s.addr, .write (controlByte s.ch s.uni s.slp), .endTx .ok,
        .request s.addr 2, .readByte b0, .readByte b1] }) ∧
  (∀ (s : State) (x : Word), s.phase = .idle →
    step (s.offer (commandWord 0x20 x)) =
      if x = 0 then exec .readRaw s else .next { s with responses := s.responses ++ [.err .illegalCommand] })

/-- R73: READ is READ_RAW's transaction with the sign extension of raw[15:4] for its answer. -/
def Obligations.ReadAnswersSample : Prop :=
  (∀ s : State, s.init = false →
    exec .read s = .next { s with phase := .idle, responses := s.responses ++ [.err .notInitialized] }) ∧
  (∀ (s : State) (e : TransportError) (o : Oracle), s.init = true → s.oracle.nextStatus = (.error e, o) →
    exec .read s = .next { s with
      phase := .idle, oracle := o, responses := s.responses ++ [.err (.transport e)],
      events := s.events ++ [.beginTx s.addr, .write (controlByte s.ch s.uni s.slp), .endTx (.error e)] }) ∧
  (∀ (s : State) (o o1 o2 : Oracle) (b0 b1 : Byte), s.init = true → s.oracle.nextStatus = (.ok, o) →
    o.nextByte = (b0, o1) → o1.nextByte = (b1, o2) →
    ∃ h d, exec .read s = .next { s with
      phase := .idle, hi := h, oracle := o2, responses := s.responses ++ [.ok d],
      events := s.events ++ [.beginTx s.addr, .write (controlByte s.ch s.uni s.slp), .endTx .ok,
        .request s.addr 2, .readByte b0, .readByte b1] } ∧
      d = ((b0.setWidth 16 <<< 8) ||| b1.setWidth 16).sshiftRight 4 ∧ -2048 ≤ d.toInt ∧ d.toInt ≤ 2047) ∧
  (∀ (s : State) (x : Word), s.phase = .idle →
    step (s.offer (commandWord 0x21 x)) =
      if x = 0 then exec .read s else .next { s with responses := s.responses ++ [.err .illegalCommand] })

/-- R74: READ_VOLTAGE answers the millivolt code of READ's sample. -/
def Obligations.ReadVoltageAnswersMillivolts : Prop :=
  (∀ s : State, s.init = false →
    exec .readVoltage s = .next { s with phase := .idle, responses := s.responses ++ [.err .notInitialized] }) ∧
  (∀ (s : State) (e : TransportError) (o : Oracle), s.init = true → s.oracle.nextStatus = (.error e, o) →
    exec .readVoltage s = .next { s with
      phase := .idle, oracle := o, responses := s.responses ++ [.err (.transport e)],
      events := s.events ++ [.beginTx s.addr, .write (controlByte s.ch s.uni s.slp), .endTx (.error e)] }) ∧
  (∀ (s : State) (o o1 o2 : Oracle) (b0 b1 : Byte), s.init = true → s.oracle.nextStatus = (.ok, o) →
    o.nextByte = (b0, o1) → o1.nextByte = (b1, o2) →
    ∃ h d, exec .readVoltage s = .next { s with
      phase := .idle, hi := h, oracle := o2, responses := s.responses ++ [.ok d],
      events := s.events ++ [.beginTx s.addr, .write (controlByte s.ch s.uni s.slp), .endTx .ok,
        .request s.addr 2, .readByte b0, .readByte b1] } ∧
      d = ((b0.setWidth 16 <<< 8) ||| b1.setWidth 16).sshiftRight 4 ∧
      -(2048 : ℚ) / 1000 ≤ volts d ∧ volts d ≤ 2047 / 1000) ∧
  (∀ (s : State) (x : Word), s.phase = .idle →
    step (s.offer (commandWord 0x22 x)) =
      if x = 0 then exec .readVoltage s else .next { s with responses := s.responses ++ [.err .illegalCommand] })

/-- R75: whatever its outcome, a read leaves ADDR, CH, UNI, SLP and INIT unchanged; it runs the transaction once at
most and does not retry. -/
def Obligations.ReadsNeverWriteRegisters : Prop :=
  ∀ (i : Instr) (s : State), isRead i = true →
    ∃ t r, exec i s = .next t ∧ t.registers = s.registers ∧ t.responses = s.responses ++ [r] ∧
      t.events = s.events ++ if s.init = true then s.readEvents else []

/-- R76: every read produces one of exactly three event lists, each with its response. -/
def Obligations.ReadEventLists : Prop :=
  ∀ (i : Instr) (s : State), isRead i = true →
    ∃ t evs r, exec i s = .next t ∧ t.events = s.events ++ evs ∧ t.responses = s.responses ++ [r] ∧
      ((s.init = false ∧ evs = [] ∧ r = .err .notInitialized) ∨
       (s.init = true ∧ ∃ e, evs = [.beginTx s.addr, .write s.ctrl, .endTx (.error e)] ∧
          r = .err (.transport e)) ∨
       (s.init = true ∧ ∃ b0 b1, evs = [.beginTx s.addr, .write s.ctrl, .endTx .ok, .request s.addr 2,
          .readByte b0, .readByte b1] ∧ r = .ok (readResult i (assembleRaw b0 b1))))

/-- R71: a read whose write phase fails answers that status unchanged, requests and reads nothing, and does not
retry: exactly one BusEndTx answer is drawn and exactly three events are recorded. -/
def Obligations.AbortWithoutReadPhase : Prop :=
  ∀ (i : Instr) (s : State) (e : TransportError) (o : Oracle), isRead i = true → s.init = true →
    s.oracle.nextStatus = (.error e, o) →
    ∃ t, exec i s = .next t ∧ t.oracle = o ∧ t.responses = s.responses ++ [.err (.transport e)] ∧
      t.events = s.events ++ [.beginTx s.addr, .write s.ctrl, .endTx (.error e)]

/-- R68, R100: the model admits every answer of the BUS: for every status and every two bytes there is an oracle that
gives them to the next read. The listed answers are the model's form of the draw (log 6). -/
def Obligations.OracleAdmitsEveryAnswer : Prop :=
  ∀ (st : BusStatus) (b0 b1 : Byte) (o : Oracle), ∃ o0 o1 o2 : Oracle,
    o0.nextStatus = (st, o1) ∧ o1.nextByte = (b0, o2) ∧ o2.nextByte = (b1, o)

/-- R21, R69: where a read can be cut. After n bus primitives READ_WORD has recorded exactly the first n events of the
whole, given no response and written no register; and from the last primitive on it is the whole of READ_WORD, so the atomic
step is the sequence of its primitives. The clause on PHASE is in part the MODEL'S DEDUCTION (log 9, DEDUCED): R21 puts
BeginTx, Write and EndTx in TX and Request and ReadByte in RX, and gives no value before the first primitive or between EndTx
and Request; the model holds TX there, so PHASE turns from TX to RX with the Request. -/
def Obligations.ReadWordPrefixesRefineIt : Prop :=
  ∀ (s : State) (n : Nat),
    (readWordPrefix n s.addr s.ctrl s).events = s.events ++ s.readEvents.take n ∧
    (readWordPrefix n s.addr s.ctrl s).responses = s.responses ∧
    (readWordPrefix n s.addr s.ctrl s).registers = s.registers ∧
    (readWordPrefix n s.addr s.ctrl s).phase =
      (if n ≤ 3 ∨ s.oracle.nextStatus.1 ≠ .ok then .tx else .rx) ∧
    (6 ≤ n → readWordPrefix n s.addr s.ctrl s = (readWord s.addr s.ctrl s).2)

/-! ## Errors -/

/-- R45, R46, R78: the STATUS codes of responses and the codes of the bus status input. -/
def Obligations.StatusCodes : Prop :=
  (∀ d, (Response.ok d).status = 0) ∧
  (Response.err (.transport .bufferOverflow)).status = 1 ∧ (Response.err (.transport .addressNack)).status = 2 ∧
  (Response.err (.transport .dataNack)).status = 3 ∧ (Response.err (.transport .otherError)).status = 4 ∧
  (Response.err (.transport .timeout)).status = 5 ∧ (Response.err .notInitialized).status = 6 ∧
  (Response.err .illegalCommand).status = 7 ∧
  (∀ st : BusStatus, BusStatus.ofCode st.code = some st) ∧
  (∀ c : BitVec 3, BusStatus.ofCode c = none ↔ c = 6 ∨ c = 7) ∧
  (∀ e : TransportError, (Response.err (.transport e)).status = (BusStatus.error e).code)

/-- R80: codes 1 to 5 appear in a response only when BusEndTx returned that same kind in the same command, and such a
return always gives that response. -/
def Obligations.TransportErrorsAreNeverMadeUp : Prop :=
  ∀ (s : State) (w : Command), s.phase = .idle →
    ∃ t r evs, step (s.offer w) = .next t ∧ t.responses = s.responses ++ [r] ∧ t.events = s.events ++ evs ∧
      ∀ e, r = .err (.transport e) ↔ BusEvent.endTx (.error e) ∈ evs

/-- R81: NOT_INITIALIZED is the answer of a read with INIT = 0, and only of that, and then no bus event occurs. -/
def Obligations.NotInitializedExactlyBeforeBegin : Prop :=
  ∀ (i : Instr) (s : State), ∃ t r, exec i s = .next t ∧ t.responses = s.responses ++ [r] ∧
    (r = .err .notInitialized ↔ isRead i = true ∧ s.init = false) ∧
    (r = .err .notInitialized → t.events = s.events)

/-- R83: ILLEGAL_COMMAND, then NOT_INITIALIZED, then the transport status; one status per command. -/
def Obligations.ErrorPriority : Prop :=
  ∀ (s : State) (w : Command), s.phase = .idle →
    ∃ t r, step (s.offer w) = .next t ∧ t.responses = s.responses ++ [r] ∧
      match decode w with
      | .error _ => r = .err .illegalCommand ∧ t.events = s.events
      | .ok i =>
        if isRead i = true then
          if s.init = false then r = .err .notInitialized ∧ t.events = s.events
          else match s.oracle.nextStatus.1 with
            | .error e => r = .err (.transport e)
            | .ok => ∃ d, r = .ok d
        else ∃ d, r = .ok d

/-! ## Whole-machine rules -/

/-- R19: no command clears INIT, BEGIN sets it, and nothing else does. -/
def Obligations.OnlyBeginSetsInitAndOnlyResetClearsIt : Prop :=
  State.reset.init = false ∧
  (∀ (s t : State) (w : Command), s.phase = .idle → step (s.offer w) = .next t →
    (t.init = true ↔ s.init = true ∨ ∃ a, decode w = .ok (.begin a))) ∧
  (∀ (i : Instr) (s : State), isRead i = true → s.init = false →
    exec i s = .next { s with phase := .idle, responses := s.responses ++ [.err .notInitialized] })

/-- R27: the write column of the access matrix for all eleven commands, and what the commands other than reads answer
does not depend on any state. -/
def Obligations.AccessMatrix : Prop :=
  ∀ (i : Instr) (s : State), ∃ t r, exec i s = .next t ∧ t.responses = s.responses ++ [r] ∧
    t.addr = (match i with | .begin a => a | .setAddress a => a | _ => s.addr) ∧
    t.ch = (match i with | .setChannel c => c | _ => s.ch) ∧
    t.uni = (match i with | .setPolarity p => p | _ => s.uni) ∧
    t.slp = (match i with | .setSleep m => m | _ => s.slp) ∧
    t.init = (match i with | .begin _ => true | _ => s.init) ∧
    t.phase = .idle ∧ t.inputs = s.inputs ∧
    (isRead i = false → t.hi = s.hi ∧ t.oracle = s.oracle ∧ t.events = s.events ∧
      ∀ s' : State, ∃ t', exec i s' = .next t' ∧ t'.responses = s'.responses ++ [r])

/-- R77: a command issues at most six bus primitives, of which at most one writes and at most two read a byte (R33), and
always ends with its response. -/
def Obligations.AtMostSixPrimitives : Prop :=
  ∀ (s : State) (w : Command), s.phase = .idle →
    ∃ t r evs, step (s.offer w) = .next t ∧ t.phase = .idle ∧ t.inputs = s.inputs ∧
      t.responses = s.responses ++ [r] ∧ t.events = s.events ++ evs ∧ evs.length ≤ 6 ∧
      evs.countP (fun e => match e with | .write _ => true | _ => false) ≤ 1 ∧
      (evs.countP (fun e => match e with | .readByte _ => true | _ => false) = 0 ∨
       evs.countP (fun e => match e with | .readByte _ => true | _ => false) = 2)

/-- R44, R76, R80: every command gets exactly one response, and the pair of its response and its bus events is one of the
legal observations. -/
def Obligations.EveryCommandIsOneLegalObservation : Prop :=
  ∀ (s : State) (w : Command), s.phase = .idle →
    ∃ t r evs, step (s.offer w) = .next t ∧ t.responses = s.responses ++ [r] ∧ t.events = s.events ++ evs ∧
      Observation s r evs

/-- R14, R21, R30: the invariant holds after reset. -/
def Obligations.ResetMeetsTheInvariant : Prop := State.reset.Inv

/-- R14, R20, R21, R30: every step keeps PHASE at IDLE between commands and, once INIT = 1, ADDR in ADDR_VALID. -/
def Obligations.EveryStepKeepsTheInvariant : Prop :=
  ∀ s t : State, s.Inv → step s = .next t → t.Inv

/-- R14, R20: no command word, legal or not, writes an ADDR outside ADDR_VALID, from any state, before BEGIN too. So a
legal ADDR stays legal, and the unspecified ADDR of reset is left only for a legal one. -/
def Obligations.NoCommandWritesAnIllegalAddress : Prop :=
  ∀ (s t : State) (w : Command), s.phase = .idle → step (s.offer w) = .next t →
    t.addr = s.addr ∨ t.addr ∈ Config.addrValid

/-- R77, R79, R98: from a state that meets the invariant the block never stops, whatever the HOST sends and the BUS
answers: every run of any length goes on and keeps the invariant. -/
def Obligations.RunsNeverStop : Prop :=
  ∀ (s : State) (k : Nat), s.Inv → ∃ t, core.run k s = .next t ∧ State.Inv t

/-- R37, R44, R104: a stream of command words, legal or not, is consumed one word a step, each word with exactly one
response, and the responses and events already given stand in front. -/
def Obligations.CommandStreamRunsToItsEnd : Prop :=
  ∀ (ws : List Command) (s : State), s.phase = .idle → s.inputs = ws.map HostInput.command →
    ∃ (t : State) (rs : List Response) (evs : List BusEvent), core.run ws.length s = .next t ∧ t.inputs = [] ∧
      t.phase = .idle ∧ rs.length = ws.length ∧ t.responses = s.responses ++ rs ∧ t.events = s.events ++ evs

/-- R14, R21: HI is never observed, and ADDR is not observed before BEGIN: two states that differ only there answer
alike and send alike through every run. -/
def Obligations.AddressBeforeBeginAndHiAreNeverObserved : Prop :=
  ∀ (s t : State) (k : Nat), Alike s t → AlikeOutcome (core.run k s) (core.run k t)

/-! ## Assembler -/

/-- R52: the words of every source line that assembles, `.word` apart, are legal and decode to that line's commands;
`.word` gives its 24-bit number as it stands, legal or not, and a number that does not fit is an error. -/
def Obligations.AssembledLinesAreLegalButForWord : Prop :=
  (∀ (l : Asm.Line) (is : List Instr), Asm.commands l = some is →
    Asm.assemble l = some (is.map encode) ∧ ∀ i ∈ is, decode (encode i) = .ok i) ∧
  (∀ l : Asm.Line, (∀ n, l ≠ .word n) → Asm.commands l = none → Asm.assemble l = none) ∧
  (∀ n : Int, Asm.assemble (.word n) = if 0 ≤ n ∧ n < 2 ^ 24 then some [BitVec.ofInt 24 n] else none)

/-- R52's six encoding examples, as text, with a comment and an alias of R53, and "An operand that does not fit its field is
an assembly error". How tokens are separated is the model's choice (log 17). -/
def Obligations.AssemblerExamples : Prop :=
  Asm.assembleText "begin 0x6B ; global address" = some [0x01006B] ∧
  Asm.assembleText "set_channel 0x8" = some [0x030008] ∧
  Asm.assembleText "set_polarity unipolar" = some [0x040001] ∧
  Asm.assembleText "build_ctrl 0xC, unipolar, wake" = some [0x10001C] ∧
  Asm.assembleText "decode_voltage -2048" = some [0x12F800] ∧
  Asm.assembleText "read_raw" = some [0x200000] ∧
  Asm.assembleText ".word 0x058000" = some [0x058000] ∧
  Asm.assembleText "configure 8, bipolar, wake" = some [0x030008, 0x040000, 0x050000] ∧
  Asm.assembleText "set_polarity_mode bipolar" = some [0x040000] ∧
  Asm.assembleText "set_channel 16" = none ∧ Asm.assembleText "set_channel -1" = none ∧
  Asm.assembleText "decode_voltage 32768" = none
end

