-- ==== Sys2Proof/Laws/Decode.lean ====
section
/-! SUPPORT. The command word taken apart (30_encoding.md R41, R42): OP and OPND of `commandWord`, the rows of R43 as
conditions on OP and OPND, and the operand fields as fields of OPND. -/

namespace Sys2Proof

@[simp] theorem Polarity.ofBit_bit (p : Polarity) : Polarity.ofBit p.bit = p := by cases p <;> rfl

@[simp] theorem Polarity.bit_ofBit (b : BitVec 1) : (Polarity.ofBit b).bit = b := by revert b; decide

@[simp] theorem SleepMode.ofBit_bit (m : SleepMode) : SleepMode.ofBit m.bit = m := by cases m <;> rfl

@[simp] theorem SleepMode.bit_ofBit (b : BitVec 1) : (SleepMode.ofBit b).bit = b := by revert b; decide

/-! OP and OPND -/

theorem commandWord_getLsbD (op : Byte) (x : Word) (i : Nat) :
    (commandWord op x).getLsbD i = if i < 16 then x.getLsbD i else op.getLsbD (i - 16) := by
  unfold commandWord
  by_cases h : i < 16
  · have : i < 24 := by omega
    simp [h, this]
  · by_cases h' : i < 24
    · simp [h, h', BitVec.getLsbD_of_ge x i (by omega)]
    · simp [h, h', BitVec.getLsbD_of_ge op (i - 16) (by omega)]

@[simp] theorem opField_commandWord (op : Byte) (x : Word) : opField (commandWord op x) = op := by
  apply BitVec.eq_of_getLsbD_eq
  intro i hi
  simp [opField, commandWord_getLsbD, hi]

@[simp] theorem wordField_commandWord (op : Byte) (x : Word) : wordField (commandWord op x) = x := by
  apply BitVec.eq_of_getLsbD_eq
  intro i hi
  simp [wordField, commandWord_getLsbD, hi]

/-- Every command word is its OP beside its OPND. -/
theorem commandWord_fields (w : Command) : commandWord (opField w) (wordField w) = w := by
  apply BitVec.eq_of_getLsbD_eq
  intro i hi
  by_cases h : i < 16
  · simp [opField, wordField, commandWord_getLsbD, h]
  · have e : 16 + (i - 16) = i := by omega
    have e' : i - 16 < 8 := by omega
    simp [opField, wordField, commandWord_getLsbD, h, e, e']

theorem commandWord_and (op op' : Byte) (x y : Word) :
    commandWord op x &&& commandWord op' y = commandWord (op &&& op') (x &&& y) := by
  apply BitVec.eq_of_getLsbD_eq
  intro i hi
  by_cases h : i < 16 <;> simp only [BitVec.getLsbD_and, commandWord_getLsbD, h, if_true, if_false]

theorem commandWord_inj {op op' : Byte} {x y : Word} :
    commandWord op x = commandWord op' y ↔ op = op' ∧ x = y := by
  constructor
  · intro h
    exact ⟨by rw [← opField_commandWord op x, h, opField_commandWord],
      by rw [← wordField_commandWord op x, h, wordField_commandWord]⟩
  · rintro ⟨rfl, rfl⟩
    rfl

/-! Operand fields as fields of OPND -/

@[simp] theorem addrField_commandWord (op : Byte) (x : Word) :
    addrField (commandWord op x) = x.extractLsb' 0 7 := by
  apply BitVec.eq_of_getLsbD_eq
  intro i hi
  have : i < 16 := by omega
  simp [addrField, commandWord_getLsbD, hi, this]

@[simp] theorem chField_commandWord (op : Byte) (x : Word) :
    chField (commandWord op x) = x.extractLsb' 0 4 := by
  apply BitVec.eq_of_getLsbD_eq
  intro i hi
  have : i < 16 := by omega
  simp [chField, commandWord_getLsbD, hi, this]

theorem bitField_commandWord (op : Byte) (x : Word) (k : Nat) (hk : k < 16) :
    bitField (commandWord op x) k = x.extractLsb' k 1 := by
  apply BitVec.eq_of_getLsbD_eq
  intro i hi
  have : k + i < 16 := by omega
  simp [bitField, commandWord_getLsbD, hi, this]

/-! Rows -/

/-- The operand bits a row's mask fixes at zero (R42, R43). -/
def Opcode.reservedMask : Opcode → Word
  | .begin => 0xFF80
  | .setAddress => 0xFF80
  | .setChannel => 0xFFF0
  | .setPolarity => 0xFFFE
  | .setSleep => 0xFFFE
  | .buildCtrl => 0xFFC0
  | .decodeSigned => 0x0000
  | .decodeVoltage => 0x0000
  | .readRaw => 0xFFFF
  | .read => 0xFFFF
  | .readVoltage => 0xFFFF

/-- A row of R43 as a condition on OP and OPND. -/
theorem matches_commandWord (o : Opcode) (op : Byte) (x : Word) :
    OpRow.matches ⟨o, commandWord o.op 0, commandWord 0xFF o.reservedMask⟩ (commandWord op x) = true
      ↔ op = o.op ∧ x &&& o.reservedMask = 0 := by
  have h : op &&& (0xFF : Byte) = op := by revert op; decide
  simp only [OpRow.matches, commandWord_and, beq_iff_eq, commandWord_inj, h]

/-- R43's table, row by row, over `commandWord`. -/
theorem opTable_eq : opTable =
    [Opcode.begin, .setAddress, .setChannel, .setPolarity, .setSleep, .buildCtrl, .decodeSigned, .decodeVoltage,
      .readRaw, .read, .readVoltage].map
      (fun o => ⟨o, commandWord o.op 0, commandWord 0xFF o.reservedMask⟩) := by decide

theorem Opcode.op_inj {o o' : Opcode} (h : o.op = o'.op) : o = o' := by
  revert h
  cases o <;> cases o' <;> decide

/-- The row of a word whose OP is in the table: it is that OP's row, if no reserved operand bit is set. -/
theorem findRow_commandWord (o : Opcode) (x : Word) (hx : x &&& o.reservedMask = 0) :
    findRow (commandWord o.op x) = some ⟨o, commandWord o.op 0, commandWord 0xFF o.reservedMask⟩ := by
  have key : ∀ o' : Opcode, OpRow.matches ⟨o', commandWord o'.op 0, commandWord 0xFF o'.reservedMask⟩
      (commandWord o.op x) = decide (o' = o) := by
    intro o'
    rw [Bool.eq_iff_iff, matches_commandWord, decide_eq_true_iff]
    constructor
    · rintro ⟨h, -⟩
      exact (Opcode.op_inj h).symm
    · rintro rfl
      exact ⟨rfl, hx⟩
  simp only [findRow, opTable_eq, List.map, List.find?, key]
  cases o <;> rfl

/-- A word whose OP is in the table and that sets a reserved operand bit has no row. -/
theorem findRow_commandWord_reserved (o : Opcode) (x : Word) (hx : x &&& o.reservedMask ≠ 0) :
    findRow (commandWord o.op x) = none := by
  simp only [findRow, opTable_eq, List.find?_eq_none, List.mem_map]
  rintro _ ⟨o', -, rfl⟩
  rw [matches_commandWord]
  rintro ⟨h, h'⟩
  cases Opcode.op_inj h
  exact hx h'

theorem legalAddr_iff (a : Addr) : Config.legalAddr a = true ↔ Config.inAddrRange a = true ∧ a ∈ Config.addrValid := by
  simp [Config.legalAddr]

end Sys2Proof
end

