-- ==== Sys2Proof/Laws/State.lean ====
section
/-! SUPPORT. One lemma per field per update of State, so that no later proof unfolds a record update. -/

namespace Sys2Proof.Machine

variable (s : State)

@[simp] theorem State.setAddr_addr (a : Addr) : (s.setAddr a).addr = a := rfl
@[simp] theorem State.setAddr_ch (a : Addr) : (s.setAddr a).ch = s.ch := rfl
@[simp] theorem State.setAddr_uni (a : Addr) : (s.setAddr a).uni = s.uni := rfl
@[simp] theorem State.setAddr_slp (a : Addr) : (s.setAddr a).slp = s.slp := rfl
@[simp] theorem State.setAddr_init (a : Addr) : (s.setAddr a).init = s.init := rfl
@[simp] theorem State.setAddr_phase (a : Addr) : (s.setAddr a).phase = s.phase := rfl
@[simp] theorem State.setAddr_hi (a : Addr) : (s.setAddr a).hi = s.hi := rfl
@[simp] theorem State.setAddr_inputs (a : Addr) : (s.setAddr a).inputs = s.inputs := rfl
@[simp] theorem State.setAddr_oracle (a : Addr) : (s.setAddr a).oracle = s.oracle := rfl
@[simp] theorem State.setAddr_responses (a : Addr) : (s.setAddr a).responses = s.responses := rfl
@[simp] theorem State.setAddr_events (a : Addr) : (s.setAddr a).events = s.events := rfl

@[simp] theorem State.setCh_addr (c : Channel) : (s.setCh c).addr = s.addr := rfl
@[simp] theorem State.setCh_ch (c : Channel) : (s.setCh c).ch = c := rfl
@[simp] theorem State.setCh_uni (c : Channel) : (s.setCh c).uni = s.uni := rfl
@[simp] theorem State.setCh_slp (c : Channel) : (s.setCh c).slp = s.slp := rfl
@[simp] theorem State.setCh_init (c : Channel) : (s.setCh c).init = s.init := rfl
@[simp] theorem State.setCh_phase (c : Channel) : (s.setCh c).phase = s.phase := rfl
@[simp] theorem State.setCh_hi (c : Channel) : (s.setCh c).hi = s.hi := rfl
@[simp] theorem State.setCh_inputs (c : Channel) : (s.setCh c).inputs = s.inputs := rfl
@[simp] theorem State.setCh_oracle (c : Channel) : (s.setCh c).oracle = s.oracle := rfl
@[simp] theorem State.setCh_responses (c : Channel) : (s.setCh c).responses = s.responses := rfl
@[simp] theorem State.setCh_events (c : Channel) : (s.setCh c).events = s.events := rfl

@[simp] theorem State.setUni_addr (p : Polarity) : (s.setUni p).addr = s.addr := rfl
@[simp] theorem State.setUni_ch (p : Polarity) : (s.setUni p).ch = s.ch := rfl
@[simp] theorem State.setUni_uni (p : Polarity) : (s.setUni p).uni = p := rfl
@[simp] theorem State.setUni_slp (p : Polarity) : (s.setUni p).slp = s.slp := rfl
@[simp] theorem State.setUni_init (p : Polarity) : (s.setUni p).init = s.init := rfl
@[simp] theorem State.setUni_phase (p : Polarity) : (s.setUni p).phase = s.phase := rfl
@[simp] theorem State.setUni_hi (p : Polarity) : (s.setUni p).hi = s.hi := rfl
@[simp] theorem State.setUni_inputs (p : Polarity) : (s.setUni p).inputs = s.inputs := rfl
@[simp] theorem State.setUni_oracle (p : Polarity) : (s.setUni p).oracle = s.oracle := rfl
@[simp] theorem State.setUni_responses (p : Polarity) : (s.setUni p).responses = s.responses := rfl
@[simp] theorem State.setUni_events (p : Polarity) : (s.setUni p).events = s.events := rfl

@[simp] theorem State.setSlp_addr (m : SleepMode) : (s.setSlp m).addr = s.addr := rfl
@[simp] theorem State.setSlp_ch (m : SleepMode) : (s.setSlp m).ch = s.ch := rfl
@[simp] theorem State.setSlp_uni (m : SleepMode) : (s.setSlp m).uni = s.uni := rfl
@[simp] theorem State.setSlp_slp (m : SleepMode) : (s.setSlp m).slp = m := rfl
@[simp] theorem State.setSlp_init (m : SleepMode) : (s.setSlp m).init = s.init := rfl
@[simp] theorem State.setSlp_phase (m : SleepMode) : (s.setSlp m).phase = s.phase := rfl
@[simp] theorem State.setSlp_hi (m : SleepMode) : (s.setSlp m).hi = s.hi := rfl
@[simp] theorem State.setSlp_inputs (m : SleepMode) : (s.setSlp m).inputs = s.inputs := rfl
@[simp] theorem State.setSlp_oracle (m : SleepMode) : (s.setSlp m).oracle = s.oracle := rfl
@[simp] theorem State.setSlp_responses (m : SleepMode) : (s.setSlp m).responses = s.responses := rfl
@[simp] theorem State.setSlp_events (m : SleepMode) : (s.setSlp m).events = s.events := rfl

@[simp] theorem State.setInit_addr : (s.setInit).addr = s.addr := rfl
@[simp] theorem State.setInit_ch : (s.setInit).ch = s.ch := rfl
@[simp] theorem State.setInit_uni : (s.setInit).uni = s.uni := rfl
@[simp] theorem State.setInit_slp : (s.setInit).slp = s.slp := rfl
@[simp] theorem State.setInit_init : (s.setInit).init = true := rfl
@[simp] theorem State.setInit_phase : (s.setInit).phase = s.phase := rfl
@[simp] theorem State.setInit_hi : (s.setInit).hi = s.hi := rfl
@[simp] theorem State.setInit_inputs : (s.setInit).inputs = s.inputs := rfl
@[simp] theorem State.setInit_oracle : (s.setInit).oracle = s.oracle := rfl
@[simp] theorem State.setInit_responses : (s.setInit).responses = s.responses := rfl
@[simp] theorem State.setInit_events : (s.setInit).events = s.events := rfl

@[simp] theorem State.setPhase_addr (p : Phase) : (s.setPhase p).addr = s.addr := rfl
@[simp] theorem State.setPhase_ch (p : Phase) : (s.setPhase p).ch = s.ch := rfl
@[simp] theorem State.setPhase_uni (p : Phase) : (s.setPhase p).uni = s.uni := rfl
@[simp] theorem State.setPhase_slp (p : Phase) : (s.setPhase p).slp = s.slp := rfl
@[simp] theorem State.setPhase_init (p : Phase) : (s.setPhase p).init = s.init := rfl
@[simp] theorem State.setPhase_phase (p : Phase) : (s.setPhase p).phase = p := rfl
@[simp] theorem State.setPhase_hi (p : Phase) : (s.setPhase p).hi = s.hi := rfl
@[simp] theorem State.setPhase_inputs (p : Phase) : (s.setPhase p).inputs = s.inputs := rfl
@[simp] theorem State.setPhase_oracle (p : Phase) : (s.setPhase p).oracle = s.oracle := rfl
@[simp] theorem State.setPhase_responses (p : Phase) : (s.setPhase p).responses = s.responses := rfl
@[simp] theorem State.setPhase_events (p : Phase) : (s.setPhase p).events = s.events := rfl

@[simp] theorem State.setHi_addr (b : Byte) : (s.setHi b).addr = s.addr := rfl
@[simp] theorem State.setHi_ch (b : Byte) : (s.setHi b).ch = s.ch := rfl
@[simp] theorem State.setHi_uni (b : Byte) : (s.setHi b).uni = s.uni := rfl
@[simp] theorem State.setHi_slp (b : Byte) : (s.setHi b).slp = s.slp := rfl
@[simp] theorem State.setHi_init (b : Byte) : (s.setHi b).init = s.init := rfl
@[simp] theorem State.setHi_phase (b : Byte) : (s.setHi b).phase = s.phase := rfl
@[simp] theorem State.setHi_hi (b : Byte) : (s.setHi b).hi = b := rfl
@[simp] theorem State.setHi_inputs (b : Byte) : (s.setHi b).inputs = s.inputs := rfl
@[simp] theorem State.setHi_oracle (b : Byte) : (s.setHi b).oracle = s.oracle := rfl
@[simp] theorem State.setHi_responses (b : Byte) : (s.setHi b).responses = s.responses := rfl
@[simp] theorem State.setHi_events (b : Byte) : (s.setHi b).events = s.events := rfl

@[simp] theorem State.setOracle_addr (o : Oracle) : (s.setOracle o).addr = s.addr := rfl
@[simp] theorem State.setOracle_ch (o : Oracle) : (s.setOracle o).ch = s.ch := rfl
@[simp] theorem State.setOracle_uni (o : Oracle) : (s.setOracle o).uni = s.uni := rfl
@[simp] theorem State.setOracle_slp (o : Oracle) : (s.setOracle o).slp = s.slp := rfl
@[simp] theorem State.setOracle_init (o : Oracle) : (s.setOracle o).init = s.init := rfl
@[simp] theorem State.setOracle_phase (o : Oracle) : (s.setOracle o).phase = s.phase := rfl
@[simp] theorem State.setOracle_hi (o : Oracle) : (s.setOracle o).hi = s.hi := rfl
@[simp] theorem State.setOracle_inputs (o : Oracle) : (s.setOracle o).inputs = s.inputs := rfl
@[simp] theorem State.setOracle_oracle (o : Oracle) : (s.setOracle o).oracle = o := rfl
@[simp] theorem State.setOracle_responses (o : Oracle) : (s.setOracle o).responses = s.responses := rfl
@[simp] theorem State.setOracle_events (o : Oracle) : (s.setOracle o).events = s.events := rfl

@[simp] theorem State.emit_addr (e : BusEvent) : (s.emit e).addr = s.addr := rfl
@[simp] theorem State.emit_ch (e : BusEvent) : (s.emit e).ch = s.ch := rfl
@[simp] theorem State.emit_uni (e : BusEvent) : (s.emit e).uni = s.uni := rfl
@[simp] theorem State.emit_slp (e : BusEvent) : (s.emit e).slp = s.slp := rfl
@[simp] theorem State.emit_init (e : BusEvent) : (s.emit e).init = s.init := rfl
@[simp] theorem State.emit_phase (e : BusEvent) : (s.emit e).phase = s.phase := rfl
@[simp] theorem State.emit_hi (e : BusEvent) : (s.emit e).hi = s.hi := rfl
@[simp] theorem State.emit_inputs (e : BusEvent) : (s.emit e).inputs = s.inputs := rfl
@[simp] theorem State.emit_oracle (e : BusEvent) : (s.emit e).oracle = s.oracle := rfl
@[simp] theorem State.emit_responses (e : BusEvent) : (s.emit e).responses = s.responses := rfl
@[simp] theorem State.emit_events (e : BusEvent) : (s.emit e).events = s.events ++ [e] := rfl

@[simp] theorem State.respond_addr (r : Response) : (s.respond r).addr = s.addr := rfl
@[simp] theorem State.respond_ch (r : Response) : (s.respond r).ch = s.ch := rfl
@[simp] theorem State.respond_uni (r : Response) : (s.respond r).uni = s.uni := rfl
@[simp] theorem State.respond_slp (r : Response) : (s.respond r).slp = s.slp := rfl
@[simp] theorem State.respond_init (r : Response) : (s.respond r).init = s.init := rfl
@[simp] theorem State.respond_phase (r : Response) : (s.respond r).phase = .idle := rfl
@[simp] theorem State.respond_hi (r : Response) : (s.respond r).hi = s.hi := rfl
@[simp] theorem State.respond_inputs (r : Response) : (s.respond r).inputs = s.inputs := rfl
@[simp] theorem State.respond_oracle (r : Response) : (s.respond r).oracle = s.oracle := rfl
@[simp] theorem State.respond_responses (r : Response) : (s.respond r).responses = s.responses ++ [r] := rfl
@[simp] theorem State.respond_events (r : Response) : (s.respond r).events = s.events := rfl

@[simp] theorem State.applyReset_addr : (s.applyReset).addr = State.reset.addr := rfl
@[simp] theorem State.applyReset_ch : (s.applyReset).ch = State.reset.ch := rfl
@[simp] theorem State.applyReset_uni : (s.applyReset).uni = State.reset.uni := rfl
@[simp] theorem State.applyReset_slp : (s.applyReset).slp = State.reset.slp := rfl
@[simp] theorem State.applyReset_init : (s.applyReset).init = State.reset.init := rfl
@[simp] theorem State.applyReset_phase : (s.applyReset).phase = State.reset.phase := rfl
@[simp] theorem State.applyReset_hi : (s.applyReset).hi = State.reset.hi := rfl
@[simp] theorem State.applyReset_inputs : (s.applyReset).inputs = s.inputs := rfl
@[simp] theorem State.applyReset_oracle : (s.applyReset).oracle = s.oracle := rfl
@[simp] theorem State.applyReset_responses : (s.applyReset).responses = s.responses := rfl
@[simp] theorem State.applyReset_events : (s.applyReset).events = s.events := rfl

@[simp] theorem State.reset_init : State.reset.init = false := rfl
@[simp] theorem State.reset_phase : State.reset.phase = .idle := rfl
@[simp] theorem State.reset_inputs : State.reset.inputs = [] := rfl
@[simp] theorem State.reset_responses : State.reset.responses = [] := rfl
@[simp] theorem State.reset_events : State.reset.events = [] := rfl

end Sys2Proof.Machine
end

