-- ==== Sys2Proof/Laws/Ops.lean ====
section
/-! SUPPORT. What each shared operation can do, said once: the oracle, the stages of READ_WORD, and the shared bodies
of the three command groups. Later proofs cite these lemmas instead of unfolding the operations. -/

namespace Sys2Proof.Machine

/-! The oracle -/

@[simp] theorem Oracle.nextStatus_listed (o : Oracle) (st : BusStatus) (rest : List BusStatus) :
    ({ o with statuses := st :: rest } : Oracle).nextStatus = (st, { o with statuses := rest }) := rfl

@[simp] theorem Oracle.nextByte_listed (o : Oracle) (b : Byte) (rest : List Byte) :
    ({ o with bytes := b :: rest } : Oracle).nextByte = (b, { o with bytes := rest }) := rfl

theorem Oracle.nextStatus_free (o : Oracle) (h : o.statuses = []) :
    o.nextStatus = (Config.busStatus o.draws, { o with draws := o.draws + 1 }) := by
  simp [Oracle.nextStatus, h]

theorem Oracle.nextByte_free (o : Oracle) (h : o.bytes = []) :
    o.nextByte = (Config.busByte o.draws, { o with draws := o.draws + 1 }) := by
  simp [Oracle.nextByte, h]

/-! The stages of READ_WORD -/

theorem txOpened_eq (a : Addr) (s : State) :
    txOpened a s = { s with phase := .tx, events := s.events ++ [.beginTx a] } := rfl

theorem txWritten_eq (a : Addr) (c : Byte) (s : State) :
    txWritten a c s = { s with phase := .tx, events := s.events ++ [.beginTx a, .write c] } := by
  simp [txWritten, txOpened_eq, busWrite, State.emit]

theorem txClosed_eq (a : Addr) (c : Byte) (s : State) :
    txClosed a c s = (s.oracle.nextStatus.1,
      { s with phase := .tx, oracle := s.oracle.nextStatus.2,
               events := s.events ++ [.beginTx a, .write c, .endTx s.oracle.nextStatus.1] }) := by
  simp [txClosed, txWritten_eq, busEndTx, State.emit, State.setOracle]

theorem rxFirst_eq (a : Addr) (s : State) :
    rxFirst a s = { s with phase := .rx, hi := s.oracle.nextByte.1, oracle := s.oracle.nextByte.2,
                           events := s.events ++ [.request a 2, .readByte s.oracle.nextByte.1] } := by
  simp [rxFirst, rxRequested, busRequest, busReadByte, State.emit, State.setOracle, State.setHi, State.setPhase,
    Config.nRx]

theorem rxSecond_eq (a : Addr) (s : State) :
    rxSecond a s = (s.oracle.nextByte.2.nextByte.1,
      { s with phase := .rx, hi := s.oracle.nextByte.1, oracle := s.oracle.nextByte.2.nextByte.2,
               events := s.events ++ [.request a 2, .readByte s.oracle.nextByte.1,
                                      .readByte s.oracle.nextByte.2.nextByte.1] }) := by
  simp [rxSecond, rxFirst_eq, busReadByte, State.emit, State.setOracle]

/-- READ_WORD when the write phase fails (R71): three events and the status, unchanged. -/
theorem readWord_aborted (a : Addr) (c : Byte) (s : State) (e : TransportError)
    (h : s.oracle.nextStatus.1 = .error e) :
    readWord a c s = (.error e,
      { s with phase := .tx, oracle := s.oracle.nextStatus.2,
               events := s.events ++ [.beginTx a, .write c, .endTx (.error e)] }) := by
  simp [readWord, txClosed_eq, h]

/-- READ_WORD when the write phase succeeds (R69, R70): six events and both bytes. -/
theorem readWord_completed (a : Addr) (c : Byte) (s : State) (h : s.oracle.nextStatus.1 = .ok) :
    readWord a c s =
      (.ok (assembleRaw s.oracle.nextStatus.2.nextByte.1 s.oracle.nextStatus.2.nextByte.2.nextByte.1),
      { s with phase := .rx, hi := s.oracle.nextStatus.2.nextByte.1,
               oracle := s.oracle.nextStatus.2.nextByte.2.nextByte.2,
               events := s.events ++
                 [.beginTx a, .write c, .endTx .ok, .request a 2, .readByte s.oracle.nextStatus.2.nextByte.1,
                  .readByte s.oracle.nextStatus.2.nextByte.2.nextByte.1] }) := by
  simp [readWord, txClosed_eq, rxSecond_eq, h]

/-! The shared bodies of the command groups -/

theorem finish_eq (s : State) (r : Response) :
    finish s r = .next { s with responses := s.responses ++ [r], phase := .idle } := rfl

theorem illegalCommand_eq (s : State) :
    illegalCommand s = .next { s with responses := s.responses ++ [.err .illegalCommand], phase := .idle } := rfl

theorem codecCommand_eq (d : Word) (s : State) :
    codecCommand d s = .next { s with responses := s.responses ++ [.ok d], phase := .idle } := rfl

theorem configCommand_eq (g : State → State) (s : State) :
    configCommand g s = .next ((g (s.setPhase .exec)).respond (.ok 0)) := rfl

/-- R76 R-a. -/
theorem readCommand_uninitialised (f : Word → Word) (s : State) (h : s.init = false) :
    readCommand f s = .next { s with responses := s.responses ++ [.err .notInitialized], phase := .idle } := by
  simp [readCommand, h, finishErr, finish_eq]

/-- R76 R-b. -/
theorem readCommand_aborted (f : Word → Word) (s : State) (e : TransportError) (h : s.init = true)
    (hst : s.oracle.nextStatus.1 = .error e) :
    readCommand f s = .next
      { s with phase := .idle, oracle := s.oracle.nextStatus.2,
               responses := s.responses ++ [.err (.transport e)],
               events := s.events ++ [.beginTx s.addr, .write s.ctrl, .endTx (.error e)] } := by
  simp [readCommand, h, readWord_aborted _ _ _ e hst, finishErr, finish_eq]

/-- R76 R-c. -/
theorem readCommand_completed (f : Word → Word) (s : State) (h : s.init = true)
    (hst : s.oracle.nextStatus.1 = .ok) :
    readCommand f s = .next
      { s with phase := .idle, hi := s.oracle.nextStatus.2.nextByte.1,
               oracle := s.oracle.nextStatus.2.nextByte.2.nextByte.2,
               responses := s.responses ++
                 [.ok (f (assembleRaw s.oracle.nextStatus.2.nextByte.1
                            s.oracle.nextStatus.2.nextByte.2.nextByte.1))],
               events := s.events ++
                 [.beginTx s.addr, .write s.ctrl, .endTx .ok, .request s.addr 2,
                  .readByte s.oracle.nextStatus.2.nextByte.1,
                  .readByte s.oracle.nextStatus.2.nextByte.2.nextByte.1] } := by
  simp [readCommand, h, readWord_completed _ _ _ hst, finish_eq]

/-! Fetching -/

@[simp] theorem State.takeInput_nil (s : State) (h : s.inputs = []) : s.takeInput = none := by
  simp [State.takeInput, h]

theorem State.takeInput_cons (s : State) (x : HostInput) (rest : List HostInput) (h : s.inputs = x :: rest) :
    s.takeInput = some (x, { s with inputs := rest }) := by
  simp [State.takeInput, h]

end Sys2Proof.Machine
end

