-- ==== Sys2Proof/Laws/PerInstr.lean ====
section
/-! SUPPORT. One lemma per command: its word has its own row in the table of 30_encoding.md R43. -/

namespace Sys2Proof.Laws.EncodesItsRow

/-- The operand keeps the row's reserved bits zero, so the encoded word has the instruction's own row. -/
def Statement (i : Instr) : Prop :=
  ∃ r, findRow (encode i) = some r ∧ r.op = i.opcode

theorem of_operand (i : Instr) (h : i.operand &&& i.opcode.reservedMask = 0) : Statement i :=
  ⟨_, findRow_commandWord i.opcode i.operand h, rfl⟩

theorem begin (a : Addr) : Statement (.begin a) := of_operand _ (by revert a; decide)

theorem setAddress (a : Addr) : Statement (.setAddress a) := of_operand _ (by revert a; decide)

theorem setChannel (ch : Channel) : Statement (.setChannel ch) := of_operand _ (by revert ch; decide)

theorem setPolarity (p : Polarity) : Statement (.setPolarity p) := of_operand _ (by cases p <;> decide)

theorem setSleep (m : SleepMode) : Statement (.setSleep m) := of_operand _ (by cases m <;> decide)

theorem buildCtrl (ch : Channel) (p : Polarity) (m : SleepMode) : Statement (.buildCtrl ch p m) :=
  of_operand _ (by revert ch; cases p <;> cases m <;> decide)

theorem decodeSigned (w : Word) : Statement (.decodeSigned w) := of_operand _ (BitVec.and_zero)

theorem decodeVoltage (s : Word) : Statement (.decodeVoltage s) := of_operand _ (BitVec.and_zero)

theorem readRaw : Statement .readRaw := of_operand _ (by decide)

theorem read : Statement .read := of_operand _ (by decide)

theorem readVoltage : Statement .readVoltage := of_operand _ (by decide)

end Sys2Proof.Laws.EncodesItsRow
end

