-- ==== Sys2Proof/Laws/Step.lean ====
section
/-! SUPPORT. What a step does on each kind of input, and a run one step at a time. -/

namespace Sys2Proof.Machine

/-- R94. -/
theorem step_of_no_input (s : State) (h : s.inputs = []) : step s = .next s := by
  simp [step, h]

/-- A command word is taken while BUSY = 0 (R22), and runs in the state it was offered to. -/
theorem step_offer (s : State) (w : Command) (h : s.phase = .idle) : step (s.offer w) = runCommand w s := by
  cases s
  simp only at h
  subst h
  rfl

/-- R93. -/
theorem step_offerReset (s : State) : step s.offerReset = .next s.applyReset := rfl

/-- R93. -/
theorem step_offerThenReset (s : State) (w : Command) (n : Nat) (h : s.phase = .idle) :
    step (s.offerThenReset w n) = .next (abandonCommand w n s) := by
  cases s
  simp only at h
  subst h
  rfl

/-- Whatever comes next on the HOST's side, a state with that input is the state without it, offered it. -/
theorem eq_offer (s : State) (w : Command) (rest : List HostInput) (h : s.inputs = .command w :: rest) :
    s = State.offer { s with inputs := rest } w := by
  simp [State.offer, ← h]

theorem run_zero (s : State) : core.run 0 s = .next s := rfl

/-- A run goes on from the next state. -/
theorem run_succ (s t : State) (k : Nat) (h : step s = .next t) : core.run (k + 1) s = core.run k t := by
  simp [Host.Core.run, core, h]

/-- A run ends at a refusal. -/
theorem run_succ_refused (s : State) (r : Refusal) (k : Nat) (h : step s = .refused r) :
    core.run (k + 1) s = .refused r := by
  simp [Host.Core.run, core, h]

end Sys2Proof.Machine
end

