-- ==== Sys2Proof/Tests/Slice0.lean ====
section
/-! SUPPORT. Tests. Expected results come from spec/: the vectors of 95_test_vectors.md (their ids stand in the names'
docstrings) and the encodings of 30_encoding.md. A witness theorem shows that the hypotheses of a statement can be met. -/

namespace Sys2Proof.Tests

open Sys2Proof.Machine

/-- The configuration of V-RD: ADDR = 0x6B, CH = 0x8, UNI = 0, SLP = 0, INIT = 1. -/
def ready : State where
  addr := 0x6B
  ch := 0x8
  uni := .bipolar
  slp := .wake
  init := true
  phase := .idle
  hi := 0x00
  inputs := []
  oracle := { statuses := [], bytes := [], draws := 0 }
  responses := []
  events := []

/-- `ready` with the BUS's next answers. -/
def readyFor (sts : List BusStatus) (bs : List Byte) : State :=
  { ready with oracle := { statuses := sts, bytes := bs, draws := 0 } }

/-- The start of V-CFG, but for ADDR, which nothing reads there. -/
def fresh : State := { ready with init := false, ch := 0x3, uni := .unipolar, slp := .sleep }

def after (o : Host.Outcome State Fault Refusal) : Option State :=
  match o with
  | .next t => some t
  | .fault _ => none
  | .refused _ => none

/-- One command word: the responses and the bus events afterwards. -/
def shown (s : State) (w : Command) : Option (List Response × List BusEvent) :=
  (after (step (s.offer w))).map fun t => (t.responses, t.events)

/-- One command word: the registers and the responses afterwards. -/
def left (s : State) (w : Command) : Option (Registers × List Response) :=
  (after (step (s.offer w))).map fun t => (t.registers, t.responses)

/-! WellFormed: the one check refuses ill-formed terms (E18, E19: illegal for every ADDR_VALID) -/

theorem test_wellFormed_begin_refuses : Instr.wellFormed (.begin 0x00) = false := by decide
theorem test_wellFormed_setAddress_refuses : Instr.wellFormed (.setAddress 0x7F) = false := by decide
theorem test_wellFormed_begin_global : Instr.wellFormed (.begin 0x6B) = true := by decide

/-! Decoding: words written out from the formats of R42, OP then OPND -/

theorem test_decode_begin : decode 0b000000010000000001101011#24 = .ok (.begin 0x6B) := by decide
theorem test_decode_setAddress : decode 0b000000100000000001101011#24 = .ok (.setAddress 0x6B) := by decide
theorem test_decode_setChannel : decode 0b000000110000000000001010#24 = .ok (.setChannel 0xA) := by decide
theorem test_decode_setPolarity : decode 0b000001000000000000000001#24 = .ok (.setPolarity .unipolar) := by decide
theorem test_decode_setSleep : decode 0b000001010000000000000001#24 = .ok (.setSleep .sleep) := by decide
/-- slp in bit 5, uni in bit 4, ch in bits 3..0. -/
theorem test_decode_buildCtrl : decode 0b000100000000000000101100#24 = .ok (.buildCtrl 0xC .bipolar .sleep) := by decide
theorem test_decode_decodeSigned : decode 0b000100011010101111001101#24 = .ok (.decodeSigned 0xABCD) := by decide
theorem test_decode_decodeVoltage : decode 0b000100101111100000000000#24 = .ok (.decodeVoltage 0xF800) := by decide
theorem test_decode_readRaw : decode 0b001000000000000000000000#24 = .ok .readRaw := by decide
theorem test_decode_read : decode 0b001000010000000000000000#24 = .ok .read := by decide
theorem test_decode_readVoltage : decode 0b001000100000000000000000#24 = .ok .readVoltage := by decide

/-- E17, E18, E20 to E27, E31: reserved OP, illegal address, reserved bits. -/
theorem test_decode_illegal :
    decode 0x000000 = .error .reservedOpcode ∧ decode 0x010000 = .error .addressNotValid ∧
    decode 0x0100EB = .error .reservedBits ∧ decode 0x02016B = .error .reservedBits ∧
    decode 0x030010 = .error .reservedBits ∧ decode 0x040002 = .error .reservedBits ∧
    decode 0x058000 = .error .reservedBits ∧ decode 0x100040 = .error .reservedBits ∧
    decode 0x200001 = .error .reservedBits ∧ decode 0x21FFFF = .error .reservedBits ∧
    decode 0x06006B = .error .reservedOpcode := by decide

theorem test_decodeTableWord : decodeTableWord 24 0x030008 = some (.setChannel 0x8) := by decide
theorem test_withFetchWord : (after (step (State.reset.withFetchWord 24 0x110010))).map (·.responses)
    = some [.ok 0x0001] := by decide

/-! Configuration commands (V-CFG) -/

/-- C2. -/
theorem test_begin : left fresh 0x01006B = some (⟨0x6B, 0x3, .unipolar, .sleep, true⟩, [.ok 0]) := by decide
/-- C12. -/
theorem test_begin_illegal :
    left fresh 0x010000 = some (⟨0x6B, 0x3, .unipolar, .sleep, false⟩, [.err .illegalCommand]) := by decide
/-- C1. -/
theorem test_setAddress : left { fresh with addr := 0x2A } 0x02006B =
    some (⟨0x6B, 0x3, .unipolar, .sleep, false⟩, [.ok 0]) := by decide
/-- C5. -/
theorem test_setChannel : left fresh 0x03000F = some (⟨0x6B, 0xF, .unipolar, .sleep, false⟩, [.ok 0]) := by decide
/-- C7. -/
theorem test_setPolarity : left fresh 0x040000 = some (⟨0x6B, 0x3, .bipolar, .sleep, false⟩, [.ok 0]) := by decide
/-- C9. -/
theorem test_setSleep : left fresh 0x050000 = some (⟨0x6B, 0x3, .unipolar, .wake, false⟩, [.ok 0]) := by decide

/-! Codec commands (V-BC, V-SX, V-MV) -/

theorem test_buildCtrl : shown fresh 0x10001C = some ([.ok 0x00C8], []) := by decide
theorem test_buildCtrl_sleep : shown fresh 0x100025 = some ([.ok 0x0054], []) := by decide
/-- X15. -/
theorem test_decodeSigned_negative : shown fresh 0x11ABCD = some ([.ok 0xFABC], []) := by decide
/-- X16. -/
theorem test_decodeSigned_padding : shown fresh 0x117FF8 = some ([.ok 0x07FF], []) := by decide
/-- M9: no clamping. -/
theorem test_decodeVoltage : shown fresh 0x128000 = some ([.ok 0x8000], []) := by decide
theorem test_volts : volts 0xF800 = -(2048 : ℚ) / 1000 := by
  have h : (0xF800 : Word).toInt = -2048 := by decide
  norm_num [volts, h]

/-! Reads (V-RD, V-PRI) -/

/-- RW-7: both bytes are kept. -/
theorem test_readRaw : shown (readyFor [.ok] [0x12, 0x34]) 0x200000 = some ([.ok 0x1234],
    [.beginTx 0x6B, .write 0x80, .endTx .ok, .request 0x6B 2, .readByte 0x12, .readByte 0x34]) := by decide
/-- RW-6. -/
theorem test_readRaw_timeout : shown (readyFor [.error .timeout] [0x12, 0x34]) 0x200000 =
    some ([.err (.transport .timeout)], [.beginTx 0x6B, .write 0x80, .endTx (.error .timeout)]) := by decide
/-- RW-23. -/
theorem test_read : shown (readyFor [.ok] [0x80, 0x00]) 0x210000 = some ([.ok 0xF800],
    [.beginTx 0x6B, .write 0x80, .endTx .ok, .request 0x6B 2, .readByte 0x80, .readByte 0x00]) := by decide
/-- RW-13. -/
theorem test_read_uninitialised : shown { readyFor [.ok] [0x80, 0x00] with init := false } 0x210000 =
    some ([.err .notInitialized], []) := by decide
/-- RW-34. -/
theorem test_readVoltage : shown (readyFor [.ok] [0x7F, 0xF0]) 0x220000 = some ([.ok 0x07FF],
    [.beginTx 0x6B, .write 0x80, .endTx .ok, .request 0x6B 2, .readByte 0x7F, .readByte 0xF0]) := by decide
/-- PR4. -/
theorem test_illegal_beats_transport : shown (readyFor [.ok] [0x01, 0x02]) 0x21FFFF =
    some ([.err .illegalCommand], []) := by decide

/-! Reset inside a read (R93): four primitives stand, no response, INIT cleared -/

theorem test_reset_in_read :
    (after (step ((readyFor [.ok] [0x12, 0x34]).offerThenReset 0x200000 4))).map
      (fun t => (t.init, t.responses, t.events)) =
    some (false, [], [.beginTx 0x6B, .write 0x80, .endTx .ok, .request 0x6B 2]) := by decide

/-! Assembler names (R52, R53) -/

theorem test_alias : Asm.opcodeOfName "set_polarity_mode" = some .setPolarity := by decide
/-- P2 line 7's decimal form: the pattern of -1. -/
theorem test_assembleText : Asm.assembleText "decode_voltage -1" = some [0x12FFFF] := by decide

/-! Witnesses for the hypotheses of the statements -/

theorem witness_ResetInsideACommand : ready.phase = .idle ∧ decode 0x200000 = .ok .readRaw ∧ ready.init = true := by decide
theorem witness_WaitsForACommand : State.reset.inputs = [] := rfl
theorem witness_StepRunsTheDecodedCommand : ready.phase = .idle ∧ decode 0x030008 = .ok (.setChannel 0x8) := by decide
theorem witness_BusyBlockTakesNoCommand : (ready.setPhase .tx).phase ≠ .idle := by decide
theorem witness_IllegalWordOnlyAnswers : ready.phase = .idle ∧ decode 0x000000 = .error .reservedOpcode := by decide
theorem witness_OpcodeMapWithoutOverlap_row :
    (⟨.readRaw, 0x200000, 0xFFFFFF⟩ : OpRow) ∈ opTable ∧ (0x200000 : Command) &&& 0xFFFFFF = 0x200000 := by decide
theorem witness_OpcodeMapWithoutOverlap_reserved : (0x130000 : Command).extractLsb' 16 8 ∉
    ([0x01, 0x02, 0x03, 0x04, 0x05, 0x10, 0x11, 0x12, 0x20, 0x21, 0x22] : List Byte) := by decide
theorem witness_DecodeOfEncode : (Instr.begin 0x6B).wellFormed = true := by decide
theorem witness_EncodeOfDecode : decode 0x01006B = .ok (.begin 0x6B) := by decide
theorem witness_legalAddress : (0x6B : Addr) ∈ Config.addrValid := by decide
theorem witness_illegalAddress : Config.legalAddr 0x07 = false ∧ Config.legalAddr 0x78 = false := by decide
/-- The two clauses of R55 and R56 at the boundary of OPND[15:7]. -/
theorem witness_address_operands : ready.phase = .idle ∧
    (0x006B : Word).extractLsb' 7 9 = 0 ∧ (0x006B : Word).extractLsb' 0 7 ∈ Config.addrValid ∧
    (0x00EB : Word).extractLsb' 7 9 ≠ 0 := by decide
theorem witness_channel_operands : (0x000F : Word).extractLsb' 4 12 = 0 ∧ (0x0010 : Word).extractLsb' 4 12 ≠ 0 := by
  decide
theorem witness_oneBit_operands : (0x0001 : Word).extractLsb' 1 15 = 0 ∧ (0x0002 : Word).extractLsb' 1 15 ≠ 0 := by
  decide
theorem witness_control_operands : (0x003F : Word).extractLsb' 6 10 = 0 ∧ (0x0040 : Word).extractLsb' 6 10 ≠ 0 := by
  decide
theorem witness_SetPolaritySetsPolarity : ∃ t, exec (.setPolarity .unipolar) ready = .next t := ⟨_, rfl⟩
theorem witness_SetSleepSetsSleep : ∃ t, exec (.setSleep .sleep) ready = .next t := ⟨_, rfl⟩
theorem witness_ConfigurationCommandProperties : ∃ t u v, isConfig (.setChannel 0x1) = true ∧
    exec (.setChannel 0x1) (readyFor [.error .timeout] []) = .next t ∧ t.init = true ∧ isRead .read = true ∧
    exec .read t = .next u ∧ exec (.setChannel 0x1) t = .next v := ⟨_, _, _, rfl, rfl, rfl, rfl, rfl, rfl⟩
theorem witness_ConfigureInAnyOrder :
    [Instr.setSleep .sleep, .setChannel 0x1, .setPolarity .unipolar].Perm (Asm.configure 0x1 .unipolar .sleep) ∧
    ready.phase = .idle ∧
    ({ ready with inputs := [.command 0x050001, .command 0x030001, .command 0x040001, .reset] } : State).inputs =
      ([Instr.setSleep .sleep, .setChannel 0x1, .setPolarity .unipolar].map fun i => HostInput.command (encode i))
        ++ [.reset] := by decide
theorem witness_ControlByteFormat : isRead .read = true ∧ ready.init = true := by decide
theorem witness_DecodeSignedSignExtends : (0x0010 : Word).extractLsb' 4 12 = (0x001F : Word).extractLsb' 4 12 := by
  decide
theorem witness_read_uninitialised : fresh.init = false ∧ isRead .readVoltage = true := by decide
theorem witness_read_aborted : (readyFor [.error .dataNack] []).init = true ∧
    (readyFor [.error .dataNack] []).oracle.nextStatus = (.error .dataNack, ⟨[], [], 0⟩) := by decide
/-- Also the hypotheses of DecodingIgnoresTheMode's last clause, with i = READ. -/
theorem witness_read_completed : (readyFor [.ok] [0xFF, 0x01]).init = true ∧
    (readyFor [.ok] [0xFF, 0x01]).oracle.nextStatus = (.ok, ⟨[], [0xFF, 0x01], 0⟩) ∧
    (⟨[], [0xFF, 0x01], 0⟩ : Oracle).nextByte = (0xFF, ⟨[], [0x01], 0⟩) ∧
    (⟨[], [0x01], 0⟩ : Oracle).nextByte = (0x01, ⟨[], [], 0⟩) := by decide
theorem witness_ReadWordPrefixesRefineIt : 6 ≤ 6 := by decide
theorem witness_Inv : ready.Inv := ⟨rfl, fun _ => witness_legalAddress⟩
theorem witness_EveryStepKeepsTheInvariant : ∃ t, ready.Inv ∧ step ready = .next t :=
  ⟨_, witness_Inv, step_of_no_input ready rfl⟩
/-- From the reset state, whose ADDR is unspecified, too. -/
theorem witness_NoCommandWritesAnIllegalAddress :
    (∃ t, State.reset.phase = .idle ∧ step (State.reset.offer 0x030008) = .next t) ∧
    ∃ t, ready.phase = .idle ∧ step (ready.offer 0x02006B) = .next t := ⟨⟨_, rfl, rfl⟩, ⟨_, rfl, rfl⟩⟩
theorem witness_OnlyBeginSetsInit : ∃ t, fresh.phase = .idle ∧ step (fresh.offer 0x030008) = .next t := ⟨_, rfl, rfl⟩
theorem witness_CommandStreamRunsToItsEnd :
    ({ ready with inputs := [.command 0x030008, .command 0x000000] } : State).inputs =
      [0x030008, 0x000000].map HostInput.command := rfl
theorem witness_Alike_hi : Alike ready { ready with hi := 0xFF } := ⟨rfl, fun _ => rfl⟩
theorem witness_Alike_addr : Alike fresh { fresh with addr := 0x2A } := ⟨rfl, fun h => by cases h⟩
theorem witness_AssembledLinesAreLegalButForWord :
    Asm.commands (.configure 5 .unipolar .wake) = some (Asm.configure 5 .unipolar .wake) ∧
    (∀ n, Asm.Line.setChannel 16 ≠ .word n) ∧ Asm.commands (.setChannel 16) = none :=
  ⟨by decide, fun _ h => (by cases h), by decide⟩

end Sys2Proof.Tests
end

/-! # The block's state: proofs

What a command does is said once (`exec_of_not_isRead`, `exec_of_isRead`, `exec_frame`), and so is what a step does on
each input (`step_command`, `step_reset`, `step_commandThenReset`, `step_busy`). The statements on registers, the
invariant and the relation `Alike` are derived from these. -/

namespace Sys2Proof.Machine

/-! ## What a command writes and answers -/

/-- The write column of R27's access matrix: the registers a command writes, the rest of the state as it is. -/
def registerWrite (i : Instr) (s : State) : State :=
  match i with
  | .begin a => (s.setAddr a).setInit
  | .setAddress a => s.setAddr a
  | .setChannel c => s.setCh c
  | .setPolarity p => s.setUni p
  | .setSleep m => s.setSlp m
  | .buildCtrl _ _ _ | .decodeSigned _ | .decodeVoltage _ | .readRaw | .read | .readVoltage => s

/-- The data a command other than a read answers (R60 to R63); no read answers it. -/
def directAnswer (i : Instr) : Word :=
  match i with
  | .buildCtrl c p m => (controlByte c p m).setWidth 16
  | .decodeSigned w => decodeRaw w
  | .decodeVoltage v => millivolts v
  | .begin _ | .setAddress _ | .setChannel _ | .setPolarity _ | .setSleep _ | .readRaw | .read | .readVoltage => 0

/-- A command other than a read writes its registers and answers, from every state alike. -/
theorem exec_of_not_isRead (i : Instr) (s : State) (h : isRead i = false) :
    exec i s = .next ((registerWrite i s).respond (.ok (directAnswer i))) := by
  cases i
  case readRaw | read | readVoltage => exact absurd h (by decide)
  all_goals rfl

/-- The three reads share one body and differ in what they make of the raw word (R76). -/
theorem exec_of_isRead (i : Instr) (s : State) (h : isRead i = true) :
    exec i s = readCommand (readResult i) s := by
  cases i
  case readRaw | read | readVoltage => rfl
  all_goals exact absurd h Bool.false_ne_true

theorem registerWrite_of_isRead (i : Instr) (s : State) (h : isRead i = true) : registerWrite i s = s := by
  cases i
  case readRaw | read | readVoltage => rfl
  all_goals exact absurd h Bool.false_ne_true

/-- The frame of READ_WORD under a read: no register but HI, one response, events only added. -/
theorem readCommand_frame (f : Word → Word) (s : State) :
    ∃ h o r evs, readCommand f s = .next
      { s with phase := .idle, hi := h, oracle := o, responses := s.responses ++ [r],
               events := s.events ++ evs } := by
  obtain hinit | hinit := Bool.eq_false_or_eq_true s.init
  · cases hst : s.oracle.nextStatus.1 with
    | error e => exact ⟨s.hi, _, _, _, readCommand_aborted f s e hinit hst⟩
    | ok => exact ⟨_, _, _, _, readCommand_completed f s hinit hst⟩
  · exact ⟨s.hi, s.oracle, _, [], by rw [readCommand_uninitialised f s hinit, List.append_nil]⟩

/-- What any command can do: it writes its registers and answers once; only a read touches HI, the oracle and the
bus. -/
theorem exec_frame (i : Instr) (s : State) :
    ∃ h o r evs, exec i s = .next
      { registerWrite i s with phase := .idle, hi := h, oracle := o, responses := s.responses ++ [r],
                               events := s.events ++ evs } ∧
      (isRead i = false → h = s.hi ∧ o = s.oracle ∧ r = .ok (directAnswer i) ∧ evs = []) := by
  cases hr : isRead i with
  | true =>
    obtain ⟨h, o, r, evs, hread⟩ := readCommand_frame (readResult i) s
    exact ⟨h, o, r, evs, by rw [exec_of_isRead i s hr, hread, registerWrite_of_isRead i s hr],
      fun hf => absurd hf (by decide)⟩
  | false =>
    refine ⟨s.hi, s.oracle, _, [], ?_, fun _ => ⟨rfl, rfl, rfl, rfl⟩⟩
    rw [exec_of_not_isRead i s hr, List.append_nil]
    cases i <;> rfl

/-- After a command the block is IDLE, and INIT and ADDR are those its register write leaves. -/
theorem exec_phase_init_addr {i : Instr} {s t : State} (h : exec i s = .next t) :
    t.phase = .idle ∧ t.init = (registerWrite i s).init ∧ t.addr = (registerWrite i s).addr := by
  obtain ⟨_, _, _, _, hex, -⟩ := exec_frame i s
  rw [hex, Host.Outcome.next.injEq] at h
  subst h
  exact ⟨rfl, rfl, rfl⟩

/-! ## What a command word does -/

theorem runCommand_of_ok {w : Command} {i : Instr} (s : State) (h : decode w = .ok i) :
    runCommand w s = exec i s := by
  simp only [runCommand, h]

theorem runCommand_of_error {w : Command} {e : DecodeError} (s : State) (h : decode w = .error e) :
    runCommand w s = illegalCommand s := by
  simp only [runCommand, h]

/-- R47: only well-formed commands leave the decoder. -/
theorem wellFormed_of_decode {w : Command} {i : Instr} (h : decode w = .ok i) : i.wellFormed = true := by
  unfold decode at h
  split at h
  · cases h
  · split at h
    · rename_i hwf
      cases h
      exact hwf
    · cases h

theorem mem_addrValid_of_legalAddr {a : Addr} (h : Config.legalAddr a = true) : a ∈ Config.addrValid :=
  ((legalAddr_iff a).mp h).2

/-- R14: a well-formed command leaves ADDR alone or writes a member of ADDR_VALID; and BEGIN, which alone sets INIT
(R19), writes ADDR too. -/
theorem registerWrite_addr_of_wellFormed {i : Instr} (s : State) (hwf : i.wellFormed = true) :
    ((registerWrite i s).addr = s.addr ∧ (registerWrite i s).init = s.init) ∨
    (registerWrite i s).addr ∈ Config.addrValid := by
  cases i
  case begin a | setAddress a => exact .inr (mem_addrValid_of_legalAddr hwf)
  all_goals exact .inl ⟨rfl, rfl⟩

/-- R14: after a command word, legal or not, ADDR and INIT are what they were or ADDR is a member of ADDR_VALID. -/
theorem runCommand_addr {w : Command} {s t : State} (h : runCommand w s = .next t) :
    t.phase = .idle ∧ ((t.addr = s.addr ∧ t.init = s.init) ∨ t.addr ∈ Config.addrValid) := by
  cases hd : decode w with
  | error e =>
    rw [runCommand_of_error s hd, illegalCommand_eq, Host.Outcome.next.injEq] at h
    subst h
    exact ⟨rfl, .inl ⟨rfl, rfl⟩⟩
  | ok i =>
    rw [runCommand_of_ok s hd] at h
    obtain ⟨hphase, hinit, haddr⟩ := exec_phase_init_addr h
    rw [hinit, haddr]
    exact ⟨hphase, registerWrite_addr_of_wellFormed s (wellFormed_of_decode hd)⟩

theorem registerWrite_init (i : Instr) (s : State) :
    (registerWrite i s).init = true ↔ s.init = true ∨ ∃ a, i = .begin a := by
  cases i <;> simp [registerWrite]

/-! ## What a step does on each input -/

section StepByInput

variable {s : State} {w : Command} {n : Nat} {rest : List HostInput}

theorem step_command (h : s.inputs = .command w :: rest) (hidle : s.phase = .idle) :
    step s = runCommand w { s with inputs := rest } := by
  simp [step, State.takeInput_cons s _ _ h, State.busy, hidle]

theorem step_commandThenReset (h : s.inputs = .commandThenReset w n :: rest) (hidle : s.phase = .idle) :
    step s = .next (abandonCommand w n { s with inputs := rest }) := by
  simp [step, State.takeInput_cons s _ _ h, State.busy, hidle]

theorem step_reset (h : s.inputs = .reset :: rest) : step s = .next { s with inputs := rest }.applyReset := by
  simp [step, State.takeInput_cons s _ _ h]

/-- R98 as the model has it (log 10): while BUSY = 1 nothing but reset is taken. -/
theorem step_busy {x : HostInput} (h : s.inputs = x :: rest) (hx : x ≠ .reset) (hbusy : s.phase ≠ .idle) :
    step s = .refused .commandWhileBusy := by
  cases x with
  | reset => exact absurd rfl hx
  | command w | commandThenReset w n => simp [step, State.takeInput_cons s _ _ h, State.busy, hbusy]

end StepByInput

/-- A command that reset cuts short leaves a reset state, whatever it had done. -/
theorem abandonCommand_eq_applyReset (w : Command) (n : Nat) (s : State) :
    ∃ u : State, abandonCommand w n s = u.applyReset := by
  unfold abandonCommand
  split
  · exact ⟨_, rfl⟩
  · exact ⟨_, rfl⟩

/-! ## Reset and the invariant -/

/-- Settles O1. -/
theorem resetValues : Obligations.ResetValues := ⟨rfl, rfl, rfl, rfl, rfl, rfl⟩

/-- Every reset state meets the invariant: INIT is 0, so nothing is asked of ADDR (R28). -/
theorem inv_applyReset (s : State) : s.applyReset.Inv :=
  ⟨rfl, fun h => absurd h Bool.false_ne_true⟩

/-- Settles O44: the reset state is its own reset. -/
theorem resetMeetsTheInvariant : Obligations.ResetMeetsTheInvariant := inv_applyReset State.reset

/-- Settles O4. -/
theorem stepRunsTheDecodedCommand : Obligations.StepRunsTheDecodedCommand := by
  intro s w i hidle hd
  rw [step_offer s w hidle, runCommand_of_ok s hd]

theorem inv_of_runCommand {w : Command} {s t : State} (hinv : s.Inv) (h : runCommand w s = .next t) : t.Inv := by
  obtain ⟨hphase, ⟨haddr, hinit⟩ | hvalid⟩ := runCommand_addr h
  · exact ⟨hphase, fun ht => haddr ▸ hinv.2 (hinit ▸ ht)⟩
  · exact ⟨hphase, fun _ => hvalid⟩

/-- Settles O45: the invariant is kept by a wait, by a command word (`inv_of_runCommand`), and by every reset
(`inv_applyReset`). -/
theorem everyStepKeepsTheInvariant : Obligations.EveryStepKeepsTheInvariant := by
  intro s t hinv hstep
  cases hin : s.inputs with
  | nil =>
    rw [step_of_no_input s hin, Host.Outcome.next.injEq] at hstep
    exact hstep ▸ hinv
  | cons x rest =>
    cases x with
    | command w =>
      rw [step_command hin hinv.1] at hstep
      exact inv_of_runCommand (s := { s with inputs := rest }) hinv hstep
    | reset =>
      rw [step_reset hin, Host.Outcome.next.injEq] at hstep
      exact hstep ▸ inv_applyReset _
    | commandThenReset w n =>
      obtain ⟨u, hu⟩ := abandonCommand_eq_applyReset w n { s with inputs := rest }
      rw [step_commandThenReset hin hinv.1, hu, Host.Outcome.next.injEq] at hstep
      exact hstep ▸ inv_applyReset u

/-- Settles O46, from what a command word does to ADDR (`runCommand_addr`). -/
theorem noCommandWritesAnIllegalAddress : Obligations.NoCommandWritesAnIllegalAddress := by
  intro s t w hidle hstep
  rw [step_offer s w hidle] at hstep
  obtain ⟨-, ⟨haddr, -⟩ | hvalid⟩ := runCommand_addr hstep
  · exact .inl haddr
  · exact .inr hvalid

/-! ## INIT and the access matrix -/

theorem runCommand_init {w : Command} {s t : State} (h : runCommand w s = .next t) :
    t.init = true ↔ s.init = true ∨ ∃ a, decode w = .ok (.begin a) := by
  cases hd : decode w with
  | error e =>
    rw [runCommand_of_error s hd, illegalCommand_eq, Host.Outcome.next.injEq] at h
    subst h
    simp
  | ok i =>
    rw [runCommand_of_ok s hd] at h
    obtain ⟨-, hinit, -⟩ := exec_phase_init_addr h
    rw [hinit, registerWrite_init]
    simp

/-- Settles O40. -/
theorem onlyBeginSetsInitAndOnlyResetClearsIt : Obligations.OnlyBeginSetsInitAndOnlyResetClearsIt := by
  refine ⟨rfl, fun s t w hidle hstep => ?_, fun i s hr hinit => ?_⟩
  · rw [step_offer s w hidle] at hstep
    exact runCommand_init hstep
  · rw [exec_of_isRead i s hr, readCommand_uninitialised _ s hinit]

/-- Settles O41: the write column is `registerWrite`, read off command by command, and the frame is `exec_frame`. -/
theorem accessMatrix : Obligations.AccessMatrix := by
  intro i s
  obtain ⟨h, o, r, evs, hex, hquiet⟩ := exec_frame i s
  refine ⟨_, r, hex, rfl, ?addr, ?ch, ?uni, ?slp, ?init, rfl, ?inputs, fun hr => ?quiet⟩
  case addr | ch | uni | slp | init | inputs => cases i <;> rfl
  case quiet =>
    obtain ⟨rfl, rfl, rfl, rfl⟩ := hquiet hr
    refine ⟨rfl, rfl, List.append_nil _, fun s' => ⟨_, exec_of_not_isRead i s' hr, ?_⟩⟩
    cases i <;> rfl

/-! ## The events of a read, whole and cut short -/

theorem readEvents_aborted {s : State} {e : TransportError} (h : s.oracle.nextStatus.1 = .error e) :
    s.readEvents = [.beginTx s.addr, .write s.ctrl, .endTx (.error e)] := by
  simp [State.readEvents, h]

theorem readEvents_completed {s : State} (h : s.oracle.nextStatus.1 = .ok) :
    s.readEvents = [.beginTx s.addr, .write s.ctrl, .endTx .ok, .request s.addr 2,
      .readByte s.oracle.nextStatus.2.nextByte.1, .readByte s.oracle.nextStatus.2.nextByte.2.nextByte.1] := by
  simp [State.readEvents, h]

/-- The events of a read taken with INIT = 1 are those of its transaction (R69, R71, R76). -/
theorem exec_events_of_isRead (i : Instr) (s : State) (hr : isRead i = true) (hinit : s.init = true) :
    ∃ t, exec i s = .next t ∧ t.events = s.events ++ s.readEvents := by
  rw [exec_of_isRead i s hr]
  cases hst : s.oracle.nextStatus.1 with
  | error e => exact ⟨_, readCommand_aborted _ s e hinit hst, by rw [readEvents_aborted hst]⟩
  | ok => exact ⟨_, readCommand_completed _ s hinit hst, by rw [readEvents_completed hst]⟩

section CutReads

variable (a : Addr) (c : Byte) (s : State)

theorem readWordPrefix_closed : readWordPrefix 3 a c s =
    { s with phase := .tx, oracle := s.oracle.nextStatus.2,
             events := s.events ++ [.beginTx a, .write c, .endTx s.oracle.nextStatus.1] } := by
  rw [readWordPrefix, txClosed_eq]

/-- R71: a failed write phase has no fourth primitive. -/
theorem readWordPrefix_aborted (k : Nat) {e : TransportError} (h : s.oracle.nextStatus.1 = .error e) :
    readWordPrefix (k + 4) a c s = (readWord a c s).2 := by
  simp [readWordPrefix, readWord, txClosed_eq, h]

theorem readWordPrefix_requested (h : s.oracle.nextStatus.1 = .ok) : readWordPrefix 4 a c s =
    { s with phase := .rx, oracle := s.oracle.nextStatus.2,
             events := s.events ++ [.beginTx a, .write c, .endTx .ok, .request a 2] } := by
  simp [readWordPrefix, txClosed_eq, h, rxRequested, busRequest, State.emit, State.setPhase, Config.nRx]

theorem readWordPrefix_first (h : s.oracle.nextStatus.1 = .ok) : readWordPrefix 5 a c s =
    { s with phase := .rx, hi := s.oracle.nextStatus.2.nextByte.1, oracle := s.oracle.nextStatus.2.nextByte.2,
             events := s.events ++ [.beginTx a, .write c, .endTx .ok, .request a 2,
               .readByte s.oracle.nextStatus.2.nextByte.1] } := by
  simp [readWordPrefix, txClosed_eq, h, rxFirst_eq]

theorem readWordPrefix_completed (k : Nat) (h : s.oracle.nextStatus.1 = .ok) :
    readWordPrefix (k + 6) a c s = (readWord a c s).2 := by
  simp [readWordPrefix, readWord, txClosed_eq, h]

/-- From the sixth primitive on a cut read is the whole transaction. -/
theorem readWordPrefix_of_six_le {n : Nat} (hn : 6 ≤ n) : readWordPrefix n a c s = (readWord a c s).2 := by
  obtain ⟨k, rfl⟩ := Nat.exists_eq_add_of_le' hn
  cases hst : s.oracle.nextStatus.1 with
  | error e => exact readWordPrefix_aborted a c s (k + 2) hst
  | ok => exact readWordPrefix_completed a c s k hst

end CutReads

/-- Settles O35, stage by stage: three stages of the write phase, then nothing more after an abort, or the Request and
the two bytes. -/
theorem readWordPrefixesRefineIt : Obligations.ReadWordPrefixesRefineIt := by
  intro s n
  have hwhole := fun hn : 6 ≤ n => readWordPrefix_of_six_le s.addr s.ctrl s hn
  match n with
  | 0 => exact ⟨(List.append_nil _).symm, rfl, rfl, rfl, hwhole⟩
  | 1 => exact ⟨rfl, rfl, rfl, rfl, hwhole⟩
  | 2 => exact ⟨by simp [readWordPrefix, txWritten_eq, State.readEvents], rfl, rfl, rfl, hwhole⟩
  | 3 => exact ⟨by simp [readWordPrefix_closed, State.readEvents], rfl, rfl, rfl, hwhole⟩
  | k + 4 =>
    cases hst : s.oracle.nextStatus.1 with
    | error e =>
      rw [readWordPrefix_aborted _ _ _ k hst, readWord_aborted _ _ _ e hst, readEvents_aborted hst]
      exact ⟨rfl, rfl, rfl, by simp, fun _ => rfl⟩
    | ok =>
      rw [readEvents_completed hst]
      match k with
      | 0 =>
        rw [readWordPrefix_requested _ _ _ hst]
        exact ⟨rfl, rfl, rfl, rfl, by simp⟩
      | 1 =>
        rw [readWordPrefix_first _ _ _ hst]
        exact ⟨rfl, rfl, rfl, rfl, by simp⟩
      | k + 2 =>
        rw [readWordPrefix_completed _ _ _ k hst, readWord_completed _ _ _ hst]
        exact ⟨by simp, rfl, rfl, by simp, fun _ => rfl⟩

/-! ## The control byte -/

theorem polarity_bit_getLsbD (p : Polarity) (i : Nat) :
    p.bit.getLsbD i = (decide (i = 0) && decide (p = .unipolar)) := by
  cases p <;> simp [Polarity.bit, BitVec.getLsbD_one]

theorem sleepMode_bit_getLsbD (m : SleepMode) (i : Nat) :
    m.bit.getLsbD i = (decide (i = 0) && decide (m = .sleep)) := by
  cases m <;> simp [SleepMode.bit, BitVec.getLsbD_one]

/-- R49, bit by bit: the three fields do not overlap. -/
theorem controlByte_getLsbD (c : Channel) (p : Polarity) (m : SleepMode) (i : Nat) (hi : i < 8) :
    (controlByte c p m).getLsbD i =
      if 4 ≤ i then c.getLsbD (i - 4)
      else if i = 3 then decide (p = .unipolar) else decide (i = 2) && decide (m = .sleep) := by
  simp only [controlByte, BitVec.getLsbD_or, BitVec.getLsbD_shiftLeft, BitVec.getLsbD_setWidth,
    polarity_bit_getLsbD, sleepMode_bit_getLsbD, hi]
  interval_cases i <;> simp

theorem controlByte_extract_ch (c : Channel) (p : Polarity) (m : SleepMode) :
    (controlByte c p m).extractLsb' 4 4 = c := by
  apply BitVec.eq_of_getLsbD_eq
  intro i hi
  rw [BitVec.getLsbD_extractLsb', controlByte_getLsbD c p m (4 + i) (by omega)]
  simp [hi]

theorem controlByte_extract_low (c : Channel) (p : Polarity) (m : SleepMode) :
    (controlByte c p m).extractLsb' 0 2 = 0 := by
  apply BitVec.eq_of_getLsbD_eq
  intro i hi
  rw [BitVec.getLsbD_extractLsb', controlByte_getLsbD c p m (0 + i) (by omega)]
  have : i < 4 ∧ i ≠ 3 ∧ i ≠ 2 := by omega
  simp [this]

theorem controlByte_bit_uni (c : Channel) (p : Polarity) (m : SleepMode) :
    (controlByte c p m).getLsbD 3 = decide (p = .unipolar) := controlByte_getLsbD c p m 3 (by decide)

theorem controlByte_bit_slp (c : Channel) (p : Polarity) (m : SleepMode) :
    (controlByte c p m).getLsbD 2 = decide (m = .sleep) :=
  (controlByte_getLsbD c p m 2 (by decide)).trans (Bool.true_and _)

/-- Distinct fields give distinct control bytes: each field is read back from its bits. -/
theorem controlByte_inj {c c' : Channel} {p p' : Polarity} {m m' : SleepMode}
    (h : controlByte c p m = controlByte c' p' m') : c = c' ∧ p = p' ∧ m = m' := by
  have hc := controlByte_extract_ch c p m
  have hp := controlByte_bit_uni c p m
  have hm := controlByte_bit_slp c p m
  rw [h, controlByte_extract_ch] at hc
  rw [h, controlByte_bit_uni, decide_eq_decide] at hp
  rw [h, controlByte_bit_slp, decide_eq_decide] at hm
  refine ⟨hc.symm, ?_, ?_⟩
  · cases p <;> cases p' <;> simp_all
  · cases m <;> cases m' <;> simp_all

theorem ofBit_eq_unipolar_iff (b : BitVec 1) : Polarity.ofBit b = .unipolar ↔ b.getLsbD 0 = true := by
  revert b
  decide

theorem ofBit_eq_sleep_iff (b : BitVec 1) : SleepMode.ofBit b = .sleep ↔ b.getLsbD 0 = true := by
  revert b
  decide

/-- Every byte with zero bits 1..0 is the control byte of its own fields. -/
theorem controlByte_fields (b : Byte) (h : b.extractLsb' 0 2 = 0) :
    controlByte (b.extractLsb' 4 4) (.ofBit (b.extractLsb' 3 1)) (.ofBit (b.extractLsb' 2 1)) = b := by
  apply BitVec.eq_of_getLsbD_eq
  intro i hi
  rw [controlByte_getLsbD _ _ _ i hi]
  by_cases hlow : i < 2
  · have hzero : b.getLsbD i = false := by simpa [hlow] using congrArg (·.getLsbD i) h
    have hne : i < 4 ∧ i ≠ 3 ∧ i ≠ 2 := by omega
    simp [hne, hzero]
  · simp only [ofBit_eq_unipolar_iff, ofBit_eq_sleep_iff, BitVec.getLsbD_extractLsb']
    interval_cases i <;> simp at hlow ⊢

/-- Settles O20. -/
theorem controlByteFormat : Obligations.ControlByteFormat := by
  refine ⟨fun s => ?fields, fun b => ⟨?low, fun h => ⟨_, _, _, controlByte_fields b h⟩⟩,
    fun c p m c' p' m' h => controlByte_inj h, fun i s hr hinit => ?sent⟩
  case fields =>
    exact ⟨controlByte_extract_ch _ _ _, controlByte_bit_uni _ _ _, controlByte_bit_slp _ _ _,
      controlByte_extract_low _ _ _⟩
  case low =>
    rintro ⟨c, p, m, rfl⟩
    exact controlByte_extract_low c p m
  case sent =>
    obtain ⟨t, hex, hevents⟩ := exec_events_of_isRead i s hr hinit
    exact ⟨t, _, hex, by rw [hevents, State.readEvents, List.append_assoc]; rfl⟩

/-! ## States that differ in HI, and in ADDR before BEGIN -/

section Alike

variable {s t : State}

theorem Alike.inputs_eq (h : Alike s t) : t.inputs = s.inputs := by rw [h.1]

theorem Alike.phase_eq (h : Alike s t) : t.phase = s.phase := by rw [h.1]

theorem Alike.init_eq (h : Alike s t) : t.init = s.init := by rw [h.1]

/-- Once INIT = 1 only HI is left to differ. -/
theorem Alike.eq_setHi (h : Alike s t) (hinit : s.init = true) : t = s.setHi t.hi := by
  rw [State.setHi, ← h.2 hinit]
  exact h.1

theorem alike_setHi (s : State) (b : Byte) : Alike s (s.setHi b) := ⟨rfl, fun _ => rfl⟩

theorem Alike.withInputs (h : Alike s t) (rest : List HostInput) :
    Alike { s with inputs := rest } { t with inputs := rest } :=
  ⟨by rw [h.1], h.2⟩

theorem Alike.setPhase (h : Alike s t) (p : Phase) : Alike (s.setPhase p) (t.setPhase p) :=
  ⟨by rw [h.1]; rfl, h.2⟩

theorem Alike.respond (h : Alike s t) (r : Response) : Alike (s.respond r) (t.respond r) :=
  ⟨by rw [h.1]; rfl, h.2⟩

theorem Alike.applyReset_eq (h : Alike s t) : t.applyReset = s.applyReset := by rw [h.1]; rfl

theorem Alike.registerWrite (h : Alike s t) (i : Instr) : Alike (registerWrite i s) (registerWrite i t) := by
  refine ⟨by rw [h.1]; cases i <;> rfl, ?_⟩
  cases i
  case begin a | setAddress a => exact fun _ => rfl
  all_goals exact h.2

/-- A read sees neither HI nor, with INIT = 0, ADDR. -/
theorem Alike.readCommand (h : Alike s t) (f : Word → Word) :
    AlikeOutcome (readCommand f s) (readCommand f t) := by
  obtain hinit | hinit := Bool.eq_false_or_eq_true s.init
  · rw [h.eq_setHi hinit]
    cases hst : s.oracle.nextStatus.1 with
    | error e =>
      rw [readCommand_aborted f s e hinit hst, readCommand_aborted f (s.setHi t.hi) e hinit hst]
      exact ⟨rfl, fun _ => rfl⟩
    | ok =>
      rw [readCommand_completed f s hinit hst, readCommand_completed f (s.setHi t.hi) hinit hst]
      exact ⟨rfl, fun _ => rfl⟩
  · rw [readCommand_uninitialised f s hinit, readCommand_uninitialised f t (h.init_eq.trans hinit)]
    exact h.respond _

theorem Alike.exec (h : Alike s t) (i : Instr) : AlikeOutcome (exec i s) (exec i t) := by
  cases hr : isRead i with
  | true =>
    rw [exec_of_isRead i s hr, exec_of_isRead i t hr]
    exact h.readCommand _
  | false =>
    rw [exec_of_not_isRead i s hr, exec_of_not_isRead i t hr]
    exact (h.registerWrite i).respond _

theorem Alike.runCommand (h : Alike s t) (w : Command) : AlikeOutcome (runCommand w s) (runCommand w t) := by
  cases hd : decode w with
  | error e =>
    rw [runCommand_of_error s hd, runCommand_of_error t hd]
    exact h.respond _
  | ok i =>
    rw [runCommand_of_ok s hd, runCommand_of_ok t hd]
    exact h.exec i

/-- No stage of READ_WORD sees the HI it started with. -/
theorem readWordPrefix_setHi (n : Nat) (a : Addr) (c : Byte) (s : State) (b : Byte) :
    Alike (readWordPrefix n a c s) (readWordPrefix n a c (s.setHi b)) := by
  match n with
  | 0 | 1 | 2 | 3 => exact alike_setHi _ b
  | k + 4 =>
    cases hst : s.oracle.nextStatus.1 with
    | error e =>
      rw [readWordPrefix_aborted a c s k hst, readWordPrefix_aborted a c (s.setHi b) k hst,
        readWord_aborted a c s e hst, readWord_aborted a c (s.setHi b) e hst]
      exact alike_setHi _ b
    | ok =>
      match k with
      | 0 =>
        rw [readWordPrefix_requested a c s hst, readWordPrefix_requested a c (s.setHi b) hst]
        exact alike_setHi _ b
      | 1 =>
        rw [readWordPrefix_first a c s hst, readWordPrefix_first a c (s.setHi b) hst]
        exact ⟨rfl, fun _ => rfl⟩
      | k + 2 =>
        rw [readWordPrefix_completed a c s k hst, readWordPrefix_completed a c (s.setHi b) k hst,
          readWord_completed a c s hst, readWord_completed a c (s.setHi b) hst]
        exact ⟨rfl, fun _ => rfl⟩

theorem Alike.inProgress (h : Alike s t) (i : Instr) (n : Nat) : Alike (inProgress i n s) (inProgress i n t) := by
  unfold Machine.inProgress
  cases isRead i with
  | false => exact h.setPhase .exec
  | true =>
    obtain hinit | hinit := Bool.eq_false_or_eq_true s.init
    · rw [h.eq_setHi hinit]
      simp only [State.setHi_init, hinit, if_true]
      exact readWordPrefix_setHi n s.addr s.ctrl s t.hi
    · simpa only [h.init_eq, hinit, if_true, Bool.false_eq_true, if_false] using h

theorem Alike.abandonCommand_eq (h : Alike s t) (w : Command) (n : Nat) :
    abandonCommand w n t = abandonCommand w n s := by
  cases hd : decode w with
  | error e => simp only [abandonCommand, hd, h.applyReset_eq]
  | ok i => simp only [abandonCommand, hd, (h.inProgress i n).applyReset_eq]

theorem alikeOutcome_of_eq (h : t = s) : AlikeOutcome (.next s) (.next t) := by
  subst h
  exact ⟨rfl, fun _ => rfl⟩

theorem Alike.step (h : Alike s t) : AlikeOutcome (step s) (step t) := by
  cases hs : s.inputs with
  | nil =>
    rw [step_of_no_input s hs, step_of_no_input t (h.inputs_eq.trans hs)]
    exact h
  | cons x rest =>
    have ht : t.inputs = x :: rest := h.inputs_eq.trans hs
    have hrest : Alike { s with inputs := rest } { t with inputs := rest } := h.withInputs rest
    by_cases hx : x = .reset
    · subst hx
      rw [step_reset hs, step_reset ht]
      exact alikeOutcome_of_eq hrest.applyReset_eq
    by_cases hidle : s.phase = .idle
    · have hidle' : t.phase = .idle := h.phase_eq.trans hidle
      cases x with
      | reset => exact absurd rfl hx
      | command w =>
        rw [step_command hs hidle, step_command ht hidle']
        exact hrest.runCommand w
      | commandThenReset w n =>
        rw [step_commandThenReset hs hidle, step_commandThenReset ht hidle']
        exact alikeOutcome_of_eq (hrest.abandonCommand_eq w n)
    · rw [step_busy hs hx hidle, step_busy ht hx (h.phase_eq ▸ hidle)]
      exact rfl

end Alike

/-- Settles O49, by induction on the length of the run: a step keeps `Alike` (`Alike.step`). -/
theorem addressBeforeBeginAndHiAreNeverObserved : Obligations.AddressBeforeBeginAndHiAreNeverObserved := by
  intro s t k
  induction k generalizing s t with
  | zero => exact id
  | succ k ih =>
    intro h
    have hstep : AlikeOutcome (step s) (step t) := h.step
    match hs : step s, ht : step t with
    | .next s', .next t' =>
      rw [hs, ht] at hstep
      rw [run_succ s s' k hs, run_succ t t' k ht]
      exact ih s' t' hstep
    | .refused r, .refused q =>
      rw [hs, ht] at hstep
      rw [run_succ_refused s r k hs, run_succ_refused t q k ht]
      exact hstep
    | .next _, .refused _ | .refused _, .next _ => simp [hs, ht, AlikeOutcome] at hstep

end Sys2Proof.Machine

/-! # The command stream and the address set: proofs

What a command word, legal or not, adds to the two output ports is said once (`runCommand_frame`); the stream is an
induction over its words. The address set's shape follows from D7's conditions, which the strap addresses meet
whatever the free parameter is (`strapSetOk_strapAddrs`). -/

namespace Sys2Proof.Machine

theorem registerWrite_inputs (i : Instr) (s : State) : (registerWrite i s).inputs = s.inputs := by
  cases i <;> rfl

/-- What any command word does: one response, events only added, the inputs left to come untouched, and IDLE after
it (R22, R44, R48). -/
theorem runCommand_frame (w : Command) (s : State) :
    ∃ (t : State) (r : Response) (evs : List BusEvent), runCommand w s = .next t ∧ t.inputs = s.inputs ∧
      t.phase = .idle ∧ t.responses = s.responses ++ [r] ∧ t.events = s.events ++ evs := by
  cases hd : decode w with
  | error e =>
    have hrun := (runCommand_of_error s hd).trans (illegalCommand_eq s)
    exact ⟨_, _, [], hrun, rfl, rfl, rfl, (List.append_nil _).symm⟩
  | ok i =>
    obtain ⟨_, _, r, evs, hex, -⟩ := exec_frame i s
    exact ⟨_, r, evs, (runCommand_of_ok s hd).trans hex, registerWrite_inputs i s, rfl, rfl, rfl⟩

/-- Settles O48, by induction on the stream: each word takes one step and adds one response (`runCommand_frame`). -/
theorem commandStreamRunsToItsEnd : Obligations.CommandStreamRunsToItsEnd := by
  intro ws
  induction ws with
  | nil =>
    intro s hidle hin
    exact ⟨s, [], [], run_zero s, hin, hidle, rfl, (List.append_nil _).symm, (List.append_nil _).symm⟩
  | cons w ws ih =>
    intro s hidle hin
    obtain ⟨u, r, evs, hrun, huin, huidle, hures, huev⟩ :=
      runCommand_frame w { s with inputs := ws.map HostInput.command }
    have hstep : step s = .next u := (step_command hin hidle).trans hrun
    obtain ⟨t, rs, evs', hrest, htin, htidle, hlen, htres, htev⟩ := ih u huidle huin
    refine ⟨t, r :: rs, evs ++ evs', ?run, htin, htidle, congrArg (· + 1) hlen, ?responses, ?events⟩
    case run => exact (run_succ s u ws.length hstep).trans hrest
    case responses => rw [htres, hures, List.append_assoc, List.singleton_append]
    case events => rw [htev, huev, List.append_assoc]

end Sys2Proof.Machine

namespace Sys2Proof.Config

/-- The Boolean range test is D7's range. -/
theorem inAddrRange_iff (a : Addr) : inAddrRange a = true ↔ 0x08 ≤ a.toNat ∧ a.toNat ≤ 0x77 := by
  simp [inAddrRange, BitVec.ule]

/-- What D7 asks of the strap addresses, condition by condition. -/
theorem strapSetOk_iff (l : List Addr) : strapSetOk l = true ↔
    l.length = 9 ∧ l.Nodup ∧ (∀ a ∈ l, inAddrRange a = true) ∧ globalAddr ∉ l := by
  simp [strapSetOk, and_assoc]

/-- The strap addresses meet D7 whatever the free parameter is: its default stands in where it does not. -/
theorem strapSetOk_strapAddrs : strapSetOk strapAddrs = true := by
  unfold strapAddrs
  split
  case isTrue h => exact h
  case isFalse => decide

/-- D7's range holds of all of ADDR_VALID, so the range test in `legalAddr` refuses no member of it. -/
theorem inAddrRange_of_mem_addrValid {a : Addr} (h : a ∈ addrValid) : inAddrRange a = true := by
  obtain ⟨-, -, hrange, -⟩ := (strapSetOk_iff strapAddrs).mp strapSetOk_strapAddrs
  obtain rfl | hstrap := List.mem_cons.mp h
  · decide
  · exact hrange a hstrap

end Sys2Proof.Config

namespace Sys2Proof.Machine

/-- Settles O12, from D7's conditions on the strap addresses. -/
theorem addressSetHasTenMembers : Obligations.AddressSetHasTenMembers := by
  obtain ⟨hlen, hnodup, -, hglobal⟩ := (Config.strapSetOk_iff _).mp Config.strapSetOk_strapAddrs
  refine ⟨congrArg (· + 1) hlen, hnodup.cons hglobal, List.mem_cons_self, hlen, hglobal, fun a ha => ?range,
    fun a => ⟨mem_addrValid_of_legalAddr, fun ha => ?legal⟩⟩
  case range => exact (Config.inAddrRange_iff a).mp (Config.inAddrRange_of_mem_addrValid ha)
  case legal => exact (legalAddr_iff a).mpr ⟨Config.inAddrRange_of_mem_addrValid ha, ha⟩

end Sys2Proof.Machine

/-! # The encoding: proofs

A row of R43's table is the row of its opcode (`Opcode.row`), and a word matches it exactly when OP is the row's and no
reserved operand bit is set (`matches_row_iff`). What the decoder answers is said once per case (`decode_of_matches`,
`decode_of_findRow_none`); the round trips and the statements on legal and illegal words are derived from these. -/

namespace Sys2Proof

/-! ## The rows of the table -/

/-- The row of R43 that an opcode has. -/
def Opcode.row (o : Opcode) : OpRow := ⟨o, commandWord o.op 0, commandWord 0xFF o.reservedMask⟩

theorem mem_opTable_iff (r : OpRow) : r ∈ opTable ↔ ∃ o : Opcode, o.row = r := by
  rw [opTable_eq, List.mem_map]
  constructor
  · rintro ⟨o, -, hr⟩
    exact ⟨o, hr⟩
  · rintro ⟨o, hr⟩
    exact ⟨o, by cases o <;> decide, hr⟩

theorem Opcode.row_mem_opTable (o : Opcode) : o.row ∈ opTable := (mem_opTable_iff _).mpr ⟨o, rfl⟩

theorem OpRow.matches_iff (r : OpRow) (w : Command) : r.matches w = true ↔ w &&& r.mask = r.matchBits := beq_iff_eq

/-- A row's mask covers all of OP and the reserved bits of OPND. -/
theorem matches_row_iff (o : Opcode) (w : Command) :
    o.row.matches w = true ↔ opField w = o.op ∧ wordField w &&& o.reservedMask = 0 := by
  conv_lhs => rw [← commandWord_fields w]
  exact matches_commandWord o (opField w) (wordField w)

theorem findRow_of_matches {o : Opcode} {w : Command} (h : o.row.matches w = true) : findRow w = some o.row := by
  obtain ⟨hop, hreserved⟩ := (matches_row_iff o w).mp h
  rw [← commandWord_fields w, hop]
  exact findRow_commandWord o (wordField w) hreserved

theorem findRow_eq_some_iff (w : Command) (r : OpRow) :
    findRow w = some r ↔ r ∈ opTable ∧ w &&& r.mask = r.matchBits := by
  constructor
  · intro h
    exact ⟨List.mem_of_find?_eq_some h, (r.matches_iff w).mp (List.find?_some (p := fun q : OpRow => q.matches w) h)⟩
  · rintro ⟨hr, hw⟩
    obtain ⟨o, rfl⟩ := (mem_opTable_iff r).mp hr
    exact findRow_of_matches ((o.row.matches_iff w).mpr hw)

theorem findRow_eq_none_iff (w : Command) : findRow w = none ↔ ∀ r ∈ opTable, w &&& r.mask ≠ r.matchBits := by
  simp only [findRow, List.find?_eq_none, OpRow.matches_iff, ne_eq]

/-- A word has the row of some opcode, or none. -/
theorem matches_or_findRow_eq_none (w : Command) : (∃ o : Opcode, o.row.matches w = true) ∨ findRow w = none := by
  cases h : findRow w with
  | none => exact .inr rfl
  | some r =>
    obtain ⟨hr, hw⟩ := (findRow_eq_some_iff w r).mp h
    obtain ⟨o, rfl⟩ := (mem_opTable_iff r).mp hr
    exact .inl ⟨o, (o.row.matches_iff w).mpr hw⟩

theorem findRow_eq_none_of_op {w : Command} (h : ∀ o : Opcode, opField w ≠ o.op) : findRow w = none := by
  obtain ⟨o, ho⟩ | hnone := matches_or_findRow_eq_none w
  · exact absurd ((matches_row_iff o w).mp ho).1 (h o)
  · exact hnone

/-! ## The decoder, case by case -/

theorem decode_of_matches {o : Opcode} {w : Command} (h : o.row.matches w = true) :
    decode w =
      if (readOperands o w).wellFormed then .ok (readOperands o w) else .error .addressNotValid := by
  rw [decode, findRow_of_matches h]
  rfl

theorem decode_of_findRow_none {w : Command} (h : findRow w = none) : decode w = .error (noRowReason w) := by
  simp only [decode, h]

theorem opcode_readOperands (o : Opcode) (w : Command) : (readOperands o w).opcode = o := by cases o <;> rfl

theorem legalAddr_iff_mem (a : Addr) : Config.legalAddr a = true ↔ a ∈ Config.addrValid :=
  ⟨Machine.mem_addrValid_of_legalAddr,
    fun ha => (legalAddr_iff a).mpr ⟨Config.inAddrRange_of_mem_addrValid ha, ha⟩⟩

/-- R47: only format A's address can be illegal inside a well-masked word. -/
theorem wellFormed_readOperands_iff (o : Opcode) (w : Command) : (readOperands o w).wellFormed = true ↔
    (o = .begin ∨ o = .setAddress → addrField w ∈ Config.addrValid) := by
  cases o
  case begin | setAddress => simp [readOperands, Instr.wellFormed, legalAddr_iff_mem]
  all_goals simp [readOperands, Instr.wellFormed]

/-- R47: a word is legal when it matches a row and its operands, as that row reads them, are legal. -/
theorem decode_eq_ok_iff (w : Command) (i : Instr) : decode w = .ok i ↔
    ∃ o : Opcode, o.row.matches w = true ∧ readOperands o w = i ∧ i.wellFormed = true := by
  constructor
  · intro h
    obtain ⟨o, ho⟩ | hnone := matches_or_findRow_eq_none w
    · have hwf := Machine.wellFormed_of_decode h
      rw [decode_of_matches ho] at h
      split at h
      · exact ⟨o, ho, Except.ok.inj h, hwf⟩
      · cases h
    · rw [decode_of_findRow_none hnone] at h
      cases h
  · rintro ⟨o, ho, rfl, hwf⟩
    rw [decode_of_matches ho, if_pos hwf]

/-! ## Round trips -/

/-- The word of every command has the command's own row. -/
theorem encode_matches (i : Instr) : i.opcode.row.matches (encode i) = true := by
  have hrow : Laws.EncodesItsRow.Statement i := by
    cases i
    case begin a => exact Laws.EncodesItsRow.begin a
    case setAddress a => exact Laws.EncodesItsRow.setAddress a
    case setChannel ch => exact Laws.EncodesItsRow.setChannel ch
    case setPolarity p => exact Laws.EncodesItsRow.setPolarity p
    case setSleep m => exact Laws.EncodesItsRow.setSleep m
    case buildCtrl ch p m => exact Laws.EncodesItsRow.buildCtrl ch p m
    case decodeSigned w => exact Laws.EncodesItsRow.decodeSigned w
    case decodeVoltage s => exact Laws.EncodesItsRow.decodeVoltage s
    case readRaw => exact Laws.EncodesItsRow.readRaw
    case read => exact Laws.EncodesItsRow.read
    case readVoltage => exact Laws.EncodesItsRow.readVoltage
  obtain ⟨r, hfind, hop⟩ := hrow
  obtain ⟨hr, hw⟩ := (findRow_eq_some_iff _ r).mp hfind
  obtain ⟨o, rfl⟩ := (mem_opTable_iff r).mp hr
  exact hop ▸ (o.row.matches_iff _).mpr hw

/-- Format K's OPND: slp is bit 5, uni bit 4 and ch bits 3..0 (R42). -/
theorem buildCtrl_operand_getLsbD (ch : Channel) (p : Polarity) (m : SleepMode) (k : Nat) (hk : k < 16) :
    (Instr.operand (.buildCtrl ch p m)).getLsbD k =
      if k < 4 then ch.getLsbD k
      else if k = 4 then p.bit.getLsbD 0 else decide (k = 5) && m.bit.getLsbD 0 := by
  simp only [Instr.operand, BitVec.getLsbD_or, BitVec.getLsbD_shiftLeft, BitVec.getLsbD_setWidth]
  interval_cases k <;> simp

/-- The fields of format K's OPND are the operands it was made of. -/
theorem buildCtrl_operand_extract (ch : Channel) (p : Polarity) (m : SleepMode) :
    (Instr.operand (.buildCtrl ch p m)).extractLsb' 0 4 = ch ∧
    (Instr.operand (.buildCtrl ch p m)).extractLsb' 4 1 = p.bit ∧
    (Instr.operand (.buildCtrl ch p m)).extractLsb' 5 1 = m.bit := by
  refine ⟨BitVec.eq_of_getLsbD_eq fun k hk => ?ch, BitVec.eq_of_getLsbD_eq fun k hk => ?uni,
    BitVec.eq_of_getLsbD_eq fun k hk => ?slp⟩
  all_goals rw [BitVec.getLsbD_extractLsb', buildCtrl_operand_getLsbD ch p m _ (by omega)]
  case ch => simp [hk]
  case uni | slp =>
    obtain rfl : k = 0 := by omega
    simp

/-- An operand put in OPND is its low bits. -/
theorem extractLsb'_setWidth {k : Nat} (a : BitVec k) (hk : k ≤ 16) : (a.setWidth 16).extractLsb' 0 k = a := by
  apply BitVec.eq_of_getLsbD_eq
  intro n hn
  simp [hn, show n < 16 by omega]

/-- Each operand field of a command's word is that operand. -/
theorem readOperands_encode (i : Instr) : readOperands i.opcode (encode i) = i := by
  cases i
  case begin a | setAddress a | setChannel ch =>
    simp [readOperands, encode, Instr.opcode, Instr.operand, extractLsb'_setWidth]
  case setPolarity p | setSleep m =>
    simp [readOperands, encode, Instr.opcode, Instr.operand, bitField_commandWord, extractLsb'_setWidth]
  case buildCtrl ch p m =>
    obtain ⟨hch, huni, hslp⟩ := buildCtrl_operand_extract ch p m
    simp [readOperands, encode, Instr.opcode, bitField_commandWord, hch, huni, hslp]
  case decodeSigned w | decodeVoltage w => simp [readOperands, encode, Instr.opcode, Instr.operand]
  case readRaw | read | readVoltage => rfl

/-- Settles O9: the word has the command's own row, whose operand fields give the operands back. -/
theorem decodeOfEncode : Obligations.DecodeOfEncode := by
  intro i hwf
  exact (decode_eq_ok_iff _ i).mpr ⟨i.opcode, encode_matches i, readOperands_encode i, hwf⟩

theorem getLsbD_eq_false_of_and_eq_zero {x m : Word} (h : x &&& m = 0) {n : Nat} (hm : m.getLsbD n = true) :
    x.getLsbD n = false := by
  have hbit := congrArg (BitVec.getLsbD · n) h
  simpa [hm] using hbit

/-- A word whose bits from `k` up are masked to zero is its low `k` bits. -/
theorem setWidth_extractLsb'_of_and_eq_zero {x m : Word} (h : x &&& m = 0) (k : Nat)
    (hm : ∀ n < 16, k ≤ n → m.getLsbD n = true) : (x.extractLsb' 0 k).setWidth 16 = x := by
  apply BitVec.eq_of_getLsbD_eq
  intro n hn
  rw [BitVec.getLsbD_setWidth, BitVec.getLsbD_extractLsb', Nat.zero_add]
  by_cases hk : n < k
  · simp [hn, hk]
  · simp [hk, getLsbD_eq_false_of_and_eq_zero h (hm n hn (by omega))]

/-- Format K's OPND is made of its three fields when its reserved bits are zero. -/
theorem buildCtrl_operand_fields {x : Word} (h : x &&& 0xFFC0 = 0) :
    Instr.operand (.buildCtrl (x.extractLsb' 0 4) (.ofBit (x.extractLsb' 4 1)) (.ofBit (x.extractLsb' 5 1))) = x := by
  have hmask : ∀ n < 16, 6 ≤ n → (0xFFC0 : Word).getLsbD n = true := by decide
  apply BitVec.eq_of_getLsbD_eq
  intro k hk
  rw [buildCtrl_operand_getLsbD _ _ _ k hk, Polarity.bit_ofBit, SleepMode.bit_ofBit]
  simp only [BitVec.getLsbD_extractLsb']
  obtain hch | rfl | rfl | hreserved : k < 4 ∨ k = 4 ∨ k = 5 ∨ 6 ≤ k := by omega
  · simp [hch]
  · simp
  · simp
  · rw [if_neg (by omega), if_neg (by omega), getLsbD_eq_false_of_and_eq_zero h (hmask k hk hreserved),
      decide_eq_false (by omega), Bool.false_and]

/-- R42: with a row's reserved bits zero, OPND holds the operands and nothing more. -/
theorem operand_readOperands (o : Opcode) (op : Byte) (x : Word) (h : x &&& o.reservedMask = 0) :
    (readOperands o (commandWord op x)).operand = x := by
  cases o
  case begin | setAddress =>
    simpa [readOperands, Instr.operand] using setWidth_extractLsb'_of_and_eq_zero h 7 (by decide)
  case setChannel =>
    simpa [readOperands, Instr.operand] using setWidth_extractLsb'_of_and_eq_zero h 4 (by decide)
  case setPolarity | setSleep =>
    simpa [readOperands, Instr.operand, bitField_commandWord] using
      setWidth_extractLsb'_of_and_eq_zero h 1 (by decide)
  case buildCtrl => simpa [readOperands, bitField_commandWord] using buildCtrl_operand_fields h
  case decodeSigned | decodeVoltage => simp [readOperands, Instr.operand]
  case readRaw | read | readVoltage =>
    exact (BitVec.and_allOnes.symm.trans h).symm

/-- Settles O10: OP is the row's, and OPND holds the operands and nothing more (`operand_readOperands`). -/
theorem encodeOfDecode : Obligations.EncodeOfDecode := by
  intro w i h
  obtain ⟨o, ho, rfl, hwf⟩ := (decode_eq_ok_iff w i).mp h
  obtain ⟨hop, hreserved⟩ := (matches_row_iff o w).mp ho
  refine ⟨?_, hwf⟩
  have hoperand := operand_readOperands o (opField w) (wordField w) hreserved
  rw [commandWord_fields] at hoperand
  rw [encode, opcode_readOperands, hoperand, ← hop, commandWord_fields]

/-! ## Legal and illegal words -/

/-- Settles O7: a word's rows are all its `findRow`, so it has at most one, and none where its OP is unlisted. -/
theorem opcodeMapWithoutOverlap : Obligations.OpcodeMapWithoutOverlap := by
  refine ⟨findRow_eq_some_iff, fun w r q hr hq hwr hwq => ?unique, fun w hop => ?unlisted, fun op m k => ?rows⟩
  case unique =>
    have hfr := (findRow_eq_some_iff w r).mpr ⟨hr, hwr⟩
    have hfq := (findRow_eq_some_iff w q).mpr ⟨hq, hwq⟩
    exact Option.some.inj (hfr.symm.trans hfq)
  case unlisted =>
    refine ⟨_, decode_of_findRow_none (findRow_eq_none_of_op fun o (ho : w.extractLsb' 16 8 = o.op) => hop ?_)⟩
    rw [ho]
    cases o <;> decide
  case rows => simp [opTable]

/-- Settles O8. -/
theorem decoderAcceptsExactlyTheLegalWords : Obligations.DecoderAcceptsExactlyTheLegalWords := by
  intro w op
  constructor
  · rintro ⟨i, hdec, rfl⟩
    obtain ⟨o, ho, rfl, hwf⟩ := (decode_eq_ok_iff w i).mp hdec
    rw [opcode_readOperands]
    exact ⟨o.row, o.row_mem_opTable, rfl, (o.row.matches_iff w).mp ho, (wellFormed_readOperands_iff o w).mp hwf⟩
  · rintro ⟨r, hr, rfl, hw, haddr⟩
    obtain ⟨o, rfl⟩ := (mem_opTable_iff r).mp hr
    exact ⟨_, (decode_eq_ok_iff w _).mpr ⟨o, (o.row.matches_iff w).mpr hw, rfl,
      (wellFormed_readOperands_iff o w).mpr haddr⟩, opcode_readOperands o w⟩

/-- A word without a row is named after its OP: listed, or reserved (log 16). -/
theorem noRowReason_cases (w : Command) :
    (noRowReason w = .reservedBits ∧ ∃ o : Opcode, opField w = o.op) ∨
    (noRowReason w = .reservedOpcode ∧ ∀ o : Opcode, opField w ≠ o.op) := by
  have hany : opTable.any (fun r => opField r.matchBits == opField w) = true ↔ ∃ o : Opcode, opField w = o.op := by
    simp only [List.any_eq_true, mem_opTable_iff, beq_iff_eq]
    constructor
    · rintro ⟨_, ⟨o, rfl⟩, ho⟩
      exact ⟨o, by rw [← ho, Opcode.row, opField_commandWord]⟩
    · rintro ⟨o, ho⟩
      exact ⟨o.row, ⟨o, rfl⟩, by rw [ho, Opcode.row, opField_commandWord]⟩
  rw [noRowReason]
  split
  case isTrue h => exact .inl ⟨rfl, hany.mp h⟩
  case isFalse h => exact .inr ⟨rfl, fun o ho => h (hany.mpr ⟨o, ho⟩)⟩

/-- The reasons other than the address are those of the words without a row (log 16). -/
theorem decode_eq_error_iff {e : DecodeError} (he : e ≠ .addressNotValid) (w : Command) :
    decode w = .error e ↔ findRow w = none ∧ noRowReason w = e := by
  obtain ⟨o, ho⟩ | hnone := matches_or_findRow_eq_none w
  · have hrow := findRow_of_matches ho
    rw [decode_of_matches ho]
    split <;> simp [hrow, he.symm]
  · simp [decode_of_findRow_none hnone, hnone]

/-- The address is the reason exactly where a row is matched and its operands are not legal. -/
theorem decode_eq_addressNotValid_iff (w : Command) : decode w = .error .addressNotValid ↔
    ∃ o : Opcode, o.row.matches w = true ∧ (readOperands o w).wellFormed = false := by
  constructor
  · intro h
    obtain ⟨o, ho⟩ | hnone := matches_or_findRow_eq_none w
    · refine ⟨o, ho, Bool.eq_false_iff.mpr fun hwf => ?_⟩
      rw [decode_of_matches ho, if_pos hwf] at h
      cases h
    · rw [decode_of_findRow_none hnone, Except.error.injEq] at h
      obtain ⟨hbits, -⟩ | ⟨hop, -⟩ := noRowReason_cases w
      · exact absurd (hbits.symm.trans h) (by decide)
      · exact absurd (hop.symm.trans h) (by decide)
  · rintro ⟨o, ho, hwf⟩
    rw [decode_of_matches ho, hwf, if_neg Bool.false_ne_true]

theorem wellFormed_readOperands_eq_false_iff (o : Opcode) (w : Command) : (readOperands o w).wellFormed = false ↔
    (o = .begin ∨ o = .setAddress) ∧ addrField w ∉ Config.addrValid := by
  rw [Bool.eq_false_iff, ne_eq, wellFormed_readOperands_iff, Classical.not_imp]

/-- Settles O53, reason by reason. -/
theorem reasonsOfIllegalWords : Obligations.ReasonsOfIllegalWords := by
  refine ⟨fun w => ?reservedOpcode, fun w => ?reservedBits, fun w => ?addressNotValid⟩
  case reservedOpcode =>
    rw [decode_eq_error_iff (by decide)]
    constructor
    · rintro ⟨-, hreason⟩ r -
      obtain ⟨hbits, -⟩ | ⟨-, hno⟩ := noRowReason_cases w
      · exact absurd (hbits.symm.trans hreason) (by decide)
      · exact hno r.op
    · intro h
      have hno : ∀ o : Opcode, opField w ≠ o.op := fun o => h o.row o.row_mem_opTable
      obtain ⟨-, o, ho⟩ | ⟨hreason, -⟩ := noRowReason_cases w
      · exact absurd ho (hno o)
      · exact ⟨findRow_eq_none_of_op hno, hreason⟩
  case reservedBits =>
    rw [decode_eq_error_iff (by decide), findRow_eq_none_iff, and_comm]
    refine and_congr_left fun _ => ?_
    constructor
    · intro hreason
      obtain ⟨-, o, ho⟩ | ⟨hop, -⟩ := noRowReason_cases w
      · exact ⟨o.row, o.row_mem_opTable, ho⟩
      · exact absurd (hop.symm.trans hreason) (by decide)
    · rintro ⟨r, -, hr⟩
      obtain ⟨hbits, -⟩ | ⟨-, hno⟩ := noRowReason_cases w
      · exact hbits
      · exact absurd hr (hno r.op)
  case addressNotValid =>
    rw [decode_eq_addressNotValid_iff]
    constructor
    · rintro ⟨o, ho, hwf⟩
      exact ⟨o.row, o.row_mem_opTable, (o.row.matches_iff w).mp ho, (wellFormed_readOperands_eq_false_iff o w).mp hwf⟩
    · rintro ⟨r, hr, hw, haddr⟩
      obtain ⟨o, rfl⟩ := (mem_opTable_iff r).mp hr
      exact ⟨o, (o.row.matches_iff w).mpr hw, (wellFormed_readOperands_eq_false_iff o w).mpr haddr⟩

/-- Settles O11. -/
theorem sampleWordsDecode : Obligations.SampleWordsDecode := by
  unfold Obligations.SampleWordsDecode
  decide

end Sys2Proof

namespace Sys2Proof.Machine

/-! ## Illegal words, STATUS codes and observations -/

/-- Settles O6. -/
theorem illegalWordOnlyAnswers : Obligations.IllegalWordOnlyAnswers := by
  intro s w e hidle hdec
  rw [step_offer s w hidle, runCommand_of_error s hdec, illegalCommand_eq]

theorem ofCode_code (st : BusStatus) : BusStatus.ofCode st.code = some st := by
  cases st with
  | ok => rfl
  | error e => cases e <;> rfl

/-- Settles O36. -/
theorem statusCodes : Obligations.StatusCodes :=
  ⟨fun _ => rfl, rfl, rfl, rfl, rfl, rfl, rfl, rfl, ofCode_code, by decide, fun _ => rfl⟩

/-- R62's sign extension of `w[15:4]` is the arithmetic shift. -/
theorem decodeRaw_eq_sshiftRight (w : Word) : decodeRaw w = w.sshiftRight 4 := by
  apply BitVec.eq_of_getLsbD_eq
  intro k hk
  have hmsb : (w.extractLsb' 4 12).msb = w.msb := by simp [BitVec.msb_eq_getLsbD_last]
  rw [decodeRaw, BitVec.getLsbD_signExtend, BitVec.getLsbD_sshiftRight, BitVec.getLsbD_extractLsb', hmsb]
  by_cases hlow : k < 12
  · simp [hk, hlow, show 4 + k < 16 by omega]
  · simp [hk, hlow, show ¬4 + k < 16 by omega]

/-- A read answers its raw word, or the decoded sample of it (R72 to R74). -/
theorem readResult_cases (i : Instr) (w : Word) : readResult i w = w ∨ readResult i w = w.sshiftRight 4 := by
  cases i
  case read | readVoltage => exact .inr (decodeRaw_eq_sshiftRight w)
  all_goals exact .inl rfl

/-- R44, R76: every command shows one legal observation: the quiet one, or for a read with INIT = 1 that of its
transaction. -/
theorem exec_observation (i : Instr) (s : State) :
    ∃ t r evs, exec i s = .next t ∧ t.responses = s.responses ++ [r] ∧ t.events = s.events ++ evs ∧
      Observation s r evs := by
  cases hr : isRead i with
  | false =>
    obtain ⟨_, _, _, _, hex, hquiet⟩ := exec_frame i s
    obtain ⟨-, -, rfl, rfl⟩ := hquiet hr
    exact ⟨_, _, _, hex, rfl, rfl, .quiet _ nofun⟩
  | true =>
    rw [exec_of_isRead i s hr]
    obtain hinit | hinit := Bool.eq_false_or_eq_true s.init
    · cases hst : s.oracle.nextStatus.1 with
      | error e => exact ⟨_, _, _, readCommand_aborted _ s e hinit hst, rfl, rfl, .aborted e⟩
      | ok =>
        exact ⟨_, _, _, readCommand_completed _ s hinit hst, rfl, rfl, .completed _ _ _ (readResult_cases i _)⟩
    · exact ⟨_, _, [], readCommand_uninitialised _ s hinit, rfl, (List.append_nil _).symm, .quiet _ nofun⟩

/-- Settles O43, from what a command shows (`exec_observation`); an illegal word is quiet (R48). -/
theorem everyCommandIsOneLegalObservation : Obligations.EveryCommandIsOneLegalObservation := by
  intro s w hidle
  rw [step_offer s w hidle]
  cases hdec : decode w with
  | error e =>
    rw [runCommand_of_error s hdec]
    exact ⟨_, _, [], illegalCommand_eq s, rfl, (List.append_nil _).symm, .quiet _ nofun⟩
  | ok i =>
    rw [runCommand_of_ok s hdec]
    exact exec_observation i s

/-! ## A stream of commands without reads -/

/-- What a command other than a read makes of the state (`exec_of_not_isRead`). -/
def directEffect (s : State) (i : Instr) : State := (registerWrite i s).respond (.ok (directAnswer i))

theorem directEffect_withInputs (s : State) (i : Instr) (rest : List HostInput) :
    { directEffect s i with inputs := rest } = directEffect { s with inputs := rest } i := by
  cases i <;> rfl

theorem directEffect_phase (s : State) (i : Instr) : (directEffect s i).phase = .idle := rfl

theorem directEffect_inputs (s : State) (i : Instr) : (directEffect s i).inputs = s.inputs := registerWrite_inputs i s

/-- A stream of the words of well-formed commands, no read among them, takes effect one command after the other. -/
theorem run_encoded_direct (is : List Instr) (rest : List HostInput)
    (hdirect : ∀ i ∈ is, i.wellFormed = true ∧ isRead i = false) :
    ∀ s : State, s.phase = .idle → s.inputs = (is.map fun i => HostInput.command (encode i)) ++ rest →
      core.run is.length s = .next (is.foldl directEffect { s with inputs := rest }) := by
  induction is with
  | nil =>
    rintro s - hin
    rw [List.map_nil, List.nil_append] at hin
    subst hin
    exact run_zero s
  | cons i is ih =>
    intro s hidle hin
    obtain ⟨⟨hwf, hread⟩, hrest⟩ := List.forall_mem_cons.mp hdirect
    have hstep := (step_command hin hidle).trans <|
      (runCommand_of_ok _ (decodeOfEncode i hwf)).trans (exec_of_not_isRead i _ hread)
    have hfold := congrArg (is.foldl directEffect)
      (directEffect_withInputs { s with inputs := (is.map fun i => HostInput.command (encode i)) ++ rest } i rest)
    calc core.run (is.length + 1) s = _ := run_succ s _ _ hstep
      _ = _ := ih hrest _ (directEffect_phase _ i) (directEffect_inputs _ i)
      _ = .next ((i :: is).foldl directEffect { s with inputs := rest }) := congrArg _ hfold

/-- R53: `configure`'s commands write different registers and answer alike, so they commute. -/
theorem directEffect_comm_of_mem_configure {c : Channel} {p : Polarity} {m : SleepMode} {i j : Instr}
    (hi : i ∈ Asm.configure c p m) (hj : j ∈ Asm.configure c p m) (s : State) :
    directEffect (directEffect s i) j = directEffect (directEffect s j) i := by
  simp only [Asm.configure, List.mem_cons, List.not_mem_nil, or_false] at hi hj
  obtain rfl | rfl | rfl := hi <;> obtain rfl | rfl | rfl := hj <;> rfl

theorem direct_of_mem_configure {c : Channel} {p : Polarity} {m : SleepMode} {i : Instr}
    (hi : i ∈ Asm.configure c p m) : i.wellFormed = true ∧ isRead i = false := by
  simp only [Asm.configure, List.mem_cons, List.not_mem_nil, or_false] at hi
  obtain rfl | rfl | rfl := hi <;> exact ⟨rfl, rfl⟩

/-- Settles O19: in any order the three commands have the effect of `configure`'s own order, since they commute. -/
theorem configureInAnyOrder : Obligations.ConfigureInAnyOrder := by
  intro c p m is s rest hperm hidle hin
  have hlen : is.length = 3 := hperm.length_eq
  have hfold := hperm.foldl_eq' (f := directEffect)
    (fun i hi j hj t => directEffect_comm_of_mem_configure (hperm.mem_iff.mp hi) (hperm.mem_iff.mp hj) t)
    { s with inputs := rest }
  have hown : (Asm.configure c p m).foldl directEffect { s with inputs := rest } =
      { s with ch := c, uni := p, slp := m, inputs := rest,
               responses := s.responses ++ [.ok 0, .ok 0, .ok 0] } := by
    simp [Asm.configure, directEffect, registerWrite, directAnswer, State.respond, State.setCh, State.setUni,
      State.setSlp, hidle]
  rw [← hown, ← hfold, ← hlen]
  exact run_encoded_direct is rest (fun i hi => direct_of_mem_configure (hperm.mem_iff.mp hi)) s hidle hin

end Sys2Proof.Machine

namespace Sys2Proof.Asm

/-! ## The assembler -/

theorem assemble_eq_of_ne_word {l : Line} (h : ∀ n, l ≠ .word n) :
    assemble l = (commands l).map (·.map encode) := by
  cases l
  case word n => exact absurd rfl (h n)
  all_goals rfl

theorem ne_word_of_commands {l : Line} {is : List Instr} (h : commands l = some is) (n : Int) : l ≠ .word n := by
  rintro rfl
  cases h

/-- R52: an address operand is checked against ADDR_VALID. -/
theorem legalAddr_of_addrOperand {n : Int} {a : Addr} (h : addrOperand n = some a) : Config.legalAddr a = true := by
  unfold addrOperand at h
  split at h
  · split at h
    · cases h
      assumption
    · cases h
  · cases h

/-- Only addresses can be ill-formed, and the assembler checks them. -/
theorem wellFormed_of_commands {l : Line} {is : List Instr} (h : commands l = some is) :
    ∀ i ∈ is, i.wellFormed = true := by
  cases l
  case begin n | setAddress n =>
    obtain ⟨a, ha, rfl⟩ := Option.map_eq_some_iff.mp h
    rintro _ hi
    rw [List.mem_singleton.mp hi]
    exact legalAddr_of_addrOperand ha
  case setChannel | buildCtrl | decodeSigned | decodeVoltage | configure =>
    obtain ⟨x, -, rfl⟩ := Option.map_eq_some_iff.mp h
    simp [Instr.wellFormed, configure]
  case setPolarity | setSleep | readRaw | read | readVoltage =>
    cases h
    simp [Instr.wellFormed]
  case word => cases h

/-- Settles O50, from the first round trip (`decodeOfEncode`). -/
theorem assembledLinesAreLegalButForWord : Obligations.AssembledLinesAreLegalButForWord := by
  refine ⟨fun l is h => ⟨?words, fun i hi => decodeOfEncode i (wellFormed_of_commands h i hi)⟩,
    fun l hl h => ?error, fun n => ?word⟩
  case words => rw [assemble_eq_of_ne_word (ne_word_of_commands h), h, Option.map_some]
  case error => rw [assemble_eq_of_ne_word hl, h, Option.map_none]
  case word =>
    rw [assemble, unsignedField]
    split <;> rfl

/-- Settles O51. -/
theorem assemblerExamples : Obligations.AssemblerExamples := by
  unfold Obligations.AssemblerExamples
  decide

end Sys2Proof.Asm

/-! # The configuration commands: proofs

What a configuration command does is said once (`exec_of_isConfig`, `step_offer_config`). Of each command the statements
then ask which register it writes, which is `registerWrite`'s own equation, and which operands are legal, which is the
row's reserved mask read as a field of OPND (`and_eq_zero_iff_extractLsb'`). -/

namespace Sys2Proof

/-- A mask of all the bits from `k` up is zero on a word exactly when that word's field above `k` is zero. -/
theorem and_eq_zero_iff_extractLsb' {x m : Word} (k len : Nat) (hlen : k + len = 16)
    (hm : ∀ n < 16, m.getLsbD n = decide (k ≤ n)) : x &&& m = 0 ↔ x.extractLsb' k len = 0 := by
  constructor
  · intro h
    apply BitVec.eq_of_getLsbD_eq
    intro n hn
    have hbit : x.getLsbD (k + n) = false :=
      getLsbD_eq_false_of_and_eq_zero h ((hm _ (by omega)).trans (decide_eq_true (Nat.le_add_right k n)))
    simp [hbit]
  · intro h
    apply BitVec.eq_of_getLsbD_eq
    intro n hn
    rw [BitVec.getLsbD_and, hm n hn]
    by_cases hk : k ≤ n
    · have hbit := congrArg (BitVec.getLsbD · (n - k)) h
      simpa [hk, show n - k < len by omega] using hbit
    · simp [hk]

theorem Polarity.ofBit_eq_ite (b : BitVec 1) :
    Polarity.ofBit b = if b.getLsbD 0 then .unipolar else .bipolar := by
  revert b
  decide

theorem SleepMode.ofBit_eq_ite (b : BitVec 1) : SleepMode.ofBit b = if b.getLsbD 0 then .sleep else .wake := by
  revert b
  decide

end Sys2Proof

namespace Sys2Proof.Machine

/-! ## What a configuration command does -/

theorem isRead_of_isConfig {i : Instr} (h : isConfig i = true) : isRead i = false := by
  cases i
  case begin | setAddress | setChannel | setPolarity | setSleep => rfl
  all_goals exact absurd h Bool.false_ne_true

theorem directAnswer_of_isConfig {i : Instr} (h : isConfig i = true) : directAnswer i = 0 := by
  cases i
  case begin | setAddress | setChannel | setPolarity | setSleep => rfl
  all_goals exact absurd h Bool.false_ne_true

/-- R60: a configuration command writes its registers and answers ok(0x0000). -/
theorem exec_of_isConfig {i : Instr} (h : isConfig i = true) (s : State) :
    exec i s = .next ((registerWrite i s).respond (.ok 0)) := by
  rw [exec_of_not_isRead i s (isRead_of_isConfig h), directAnswer_of_isConfig h]

/-- The same, of a state that the command is known to end in. -/
theorem eq_of_exec_config {i : Instr} {s t : State} (h : isConfig i = true) (hex : exec i s = .next t) :
    t = (registerWrite i s).respond (.ok 0) :=
  (Host.Outcome.next.inj ((exec_of_isConfig h s).symm.trans hex)).symm

theorem State.respond_of_idle {s : State} (h : s.phase = .idle) (r : Response) :
    s.respond r = { s with responses := s.responses ++ [r] } := by
  rw [State.respond, ← h]

theorem registerWrite_phase (i : Instr) (s : State) : (registerWrite i s).phase = s.phase := by cases i <;> rfl

theorem registerWrite_responses (i : Instr) (s : State) : (registerWrite i s).responses = s.responses := by
  cases i <;> rfl

theorem registerWrite_events (i : Instr) (s : State) : (registerWrite i s).events = s.events := by cases i <;> rfl

/-- A word with a listed OP is legal when its reserved operand bits are zero and its operands are well-formed (R47). -/
theorem decode_commandWord_eq_ok_iff (o : Opcode) (x : Word) (i : Instr) :
    decode (commandWord o.op x) = .ok i ↔
      x &&& o.reservedMask = 0 ∧ readOperands o (commandWord o.op x) = i ∧ i.wellFormed = true := by
  rw [decode_eq_ok_iff]
  constructor
  · rintro ⟨o', ho', hread, hwf⟩
    obtain ⟨hop, hreserved⟩ := (matches_commandWord o' o.op x).mp ho'
    cases Opcode.op_inj hop
    exact ⟨hreserved, hread, hwf⟩
  · rintro ⟨hreserved, hread, hwf⟩
    exact ⟨o, (matches_commandWord o o.op x).mpr ⟨rfl, hreserved⟩, hread, hwf⟩

/-- The word of a configuration command, for every OPND: its register write and ok(0x0000) where the word is legal, and
an error response alone where it is not (R48, R60). -/
theorem step_offer_config (o : Opcode) {op : Byte} {x : Word} {i : Instr} {legal : Prop} [Decidable legal] {s : State}
    (hop : o.op = op) (hidle : s.phase = .idle) (hread : readOperands o (commandWord op x) = i)
    (hi : isConfig i = true) (hlegal : x &&& o.reservedMask = 0 ∧ i.wellFormed = true ↔ legal) :
    step (s.offer (commandWord op x)) =
      if legal then .next { registerWrite i s with responses := s.responses ++ [.ok 0] }
      else .next { s with responses := s.responses ++ [.err .illegalCommand] } := by
  subst hop
  rw [step_offer s _ hidle]
  split
  case isTrue h =>
    obtain ⟨hreserved, hwf⟩ := hlegal.mpr h
    rw [runCommand_of_ok s ((decode_commandWord_eq_ok_iff o x i).mpr ⟨hreserved, hread, hwf⟩), exec_of_isConfig hi,
      State.respond_of_idle ((registerWrite_phase i s).trans hidle), registerWrite_responses]
  case isFalse h =>
    cases hdec : decode (commandWord o.op x) with
    | error e =>
      rw [runCommand_of_error s hdec, ← State.respond_of_idle hidle]
      rfl
    | ok j =>
      obtain ⟨hreserved, hj, hwf⟩ := (decode_commandWord_eq_ok_iff o x j).mp hdec
      exact absurd (hlegal.mp ⟨hreserved, hread.symm.trans hj ▸ hwf⟩) h

/-! ## Legal operands, format by format -/

/-- Format A: OPND[15:7] is zero and the address is legal. -/
theorem legal_addressOperand_iff (x : Word) :
    x &&& 0xFF80 = 0 ∧ Config.legalAddr (x.extractLsb' 0 7) = true ↔
      x.extractLsb' 7 9 = 0 ∧ x.extractLsb' 0 7 ∈ Config.addrValid :=
  and_congr (and_eq_zero_iff_extractLsb' 7 9 rfl (by decide)) (legalAddr_iff_mem _)

/-- Format B: OPND[15:1] is zero. -/
theorem legal_bitOperand_iff (x : Word) : x &&& 0xFFFE = 0 ∧ true = true ↔ x.extractLsb' 1 15 = 0 :=
  (and_iff_left rfl).trans (and_eq_zero_iff_extractLsb' 1 15 rfl (by decide))

/-! ## The five commands -/

/-- Settles O13: every OPND's answer is `step_offer_config`, and format A's legal ones are `legal_addressOperand_iff`. -/
theorem beginSetsAddressAndInit : Obligations.BeginSetsAddressAndInit := by
  refine ⟨fun s a _ => exec_of_isConfig rfl s, fun s x hidle => ?word⟩
  case word =>
    have hread : readOperands .begin (commandWord 0x01 x) = .begin (x.extractLsb' 0 7) :=
      congrArg Instr.begin (addrField_commandWord _ x)
    exact step_offer_config .begin rfl hidle hread rfl (legal_addressOperand_iff x)

/-- Settles O14: as BEGIN, with a register write that leaves INIT alone. -/
theorem setAddressSetsAddress : Obligations.SetAddressSetsAddress := by
  refine ⟨fun s a _ => exec_of_isConfig rfl s, fun s x hidle => ?word⟩
  case word =>
    have hread : readOperands .setAddress (commandWord 0x02 x) = .setAddress (x.extractLsb' 0 7) :=
      congrArg Instr.setAddress (addrField_commandWord _ x)
    exact step_offer_config .setAddress rfl hidle hread rfl (legal_addressOperand_iff x)

/-- Settles O15: format C's legal operands are those with OPND[15:4] zero. -/
theorem setChannelSetsChannel : Obligations.SetChannelSetsChannel := by
  refine ⟨fun s c => exec_of_isConfig rfl s, fun s x hidle => ?word⟩
  case word =>
    have hread : readOperands .setChannel (commandWord 0x03 x) = .setChannel (x.extractLsb' 0 4) :=
      congrArg Instr.setChannel (chField_commandWord _ x)
    exact step_offer_config .setChannel rfl hidle hread rfl
      ((and_iff_left rfl).trans (and_eq_zero_iff_extractLsb' 4 12 rfl (by decide)))

/-- UNI is in no bit of the control byte but bit 3. -/
theorem controlByte_getLsbD_of_ne_three (c : Channel) (p p' : Polarity) (m : SleepMode) {k : Nat} (hk : k ≠ 3) :
    (controlByte c p m).getLsbD k = (controlByte c p' m).getLsbD k := by
  by_cases hwidth : k < 8
  · simp only [controlByte_getLsbD _ _ _ k hwidth, hk, if_false]
  · simp only [BitVec.getLsbD_of_ge _ k (Nat.le_of_not_lt hwidth)]

/-- SLP is in no bit of the control byte but bit 2. -/
theorem controlByte_getLsbD_of_ne_two (c : Channel) (p : Polarity) (m m' : SleepMode) {k : Nat} (hk : k ≠ 2) :
    (controlByte c p m).getLsbD k = (controlByte c p m').getLsbD k := by
  by_cases hwidth : k < 8
  · simp only [controlByte_getLsbD _ _ _ k hwidth, hk, decide_false, Bool.false_and]
  · simp only [BitVec.getLsbD_of_ge _ k (Nat.le_of_not_lt hwidth)]

/-- Settles O16: UNI is bit 3 of the control byte and no other bit (`controlByte_getLsbD_of_ne_three`). -/
theorem setPolaritySetsPolarity : Obligations.SetPolaritySetsPolarity := by
  refine ⟨fun s p => exec_of_isConfig rfl s, fun s x hidle => ?word, fun s t p hex => ?controlByte⟩
  case word =>
    have hread : readOperands .setPolarity (commandWord 0x04 x) =
        .setPolarity (if x.getLsbD 0 then .unipolar else .bipolar) := by
      simp [readOperands, bitField_commandWord, Polarity.ofBit_eq_ite]
    exact step_offer_config .setPolarity rfl hidle hread rfl (legal_bitOperand_iff x)
  case controlByte =>
    have hctrl : t.ctrl = controlByte s.ch p s.slp := congrArg State.ctrl (eq_of_exec_config rfl hex)
    rw [hctrl]
    exact ⟨controlByte_bit_uni _ _ _, fun k hk => controlByte_getLsbD_of_ne_three _ _ _ _ hk⟩

/-- Settles O17: SLP is bit 2 of the control byte and no other bit (`controlByte_getLsbD_of_ne_two`). -/
theorem setSleepSetsSleep : Obligations.SetSleepSetsSleep := by
  refine ⟨fun s m => exec_of_isConfig rfl s, fun s x hidle => ?word, fun s t m hex => ?controlByte⟩
  case word =>
    have hread : readOperands .setSleep (commandWord 0x05 x) =
        .setSleep (if x.getLsbD 0 then .sleep else .wake) := by
      simp [readOperands, bitField_commandWord, SleepMode.ofBit_eq_ite]
    exact step_offer_config .setSleep rfl hidle hread rfl (legal_bitOperand_iff x)
  case controlByte =>
    have hctrl : t.ctrl = controlByte s.ch s.uni m := congrArg State.ctrl (eq_of_exec_config rfl hex)
    rw [hctrl]
    exact ⟨controlByte_bit_slp _ _ _, fun k hk => controlByte_getLsbD_of_ne_two _ _ _ _ hk⟩

/-! ## Their common properties -/

/-- R60's idempotence: a register write repeated after its response finds the registers already written. -/
theorem registers_registerWrite_respond (i : Instr) (s : State) (r : Response) :
    (registerWrite i ((registerWrite i s).respond r)).registers = (registerWrite i s).registers := by
  cases i <;> rfl

theorem ctrl_eq_of_registers_eq {s t : State} (h : t.registers = s.registers) : t.ctrl = s.ctrl := by
  obtain ⟨-, hch, huni, hslp, -⟩ := Registers.mk.inj h
  rw [State.ctrl, hch, huni, hslp, ← State.ctrl]

/-- Every read taken with INIT = 1 opens with its address and the control byte of its registers (R69). -/
theorem events_of_exec_read {j : Instr} {t u : State} (hj : isRead j = true) (hinit : t.init = true)
    (hex : exec j t = .next u) :
    ∃ rest, u.events = t.events ++ [.beginTx t.addr, .write t.ctrl] ++ rest := by
  obtain ⟨v, hv, hevents⟩ := exec_events_of_isRead j t hj hinit
  obtain rfl : v = u := Host.Outcome.next.inj (hv.symm.trans hex)
  exact ⟨_, by rw [hevents, State.readEvents, List.append_assoc]; rfl⟩

/-- Settles O18: the four properties that hold of all five commands at once, and then each register's writers (R27). -/
theorem configurationCommandProperties : Obligations.ConfigurationCommandProperties := by
  intro i s hi
  refine ⟨⟨_, exec_of_isConfig hi s, ?answer⟩, fun t hex => ?_⟩
  case answer => rw [State.respond_responses, registerWrite_responses]
  obtain rfl := eq_of_exec_config hi hex
  have hquiet : ((registerWrite i s).respond (.ok 0)).events = s.events := registerWrite_events i s
  refine ⟨hquiet, fun j u hj hinit hread => ?deferred, fun u hagain => ?idempotent, ?addr, ?ch, ?uni, ?slp, ?init⟩
  case deferred => exact hquiet ▸ events_of_exec_read hj hinit hread
  case idempotent =>
    obtain rfl := eq_of_exec_config hi hagain
    have hregisters := registers_registerWrite_respond i s (.ok 0)
    exact ⟨hregisters, ctrl_eq_of_registers_eq hregisters⟩
  case addr | ch | uni | slp | init => cases i <;> simp [registerWrite]

end Sys2Proof.Machine

/-! # The codec commands: proofs

A codec command writes no register and answers `directAnswer` (`exec_of_codec`, `step_offer_codec`). What that answer
is, bit by bit and as a number, are facts about `controlByte`, `decodeRaw` and `volts` alone. What any command answers
is said once as a function of INIT and the BUS's answers (`commandAnswer`), which is why no mode bit can matter. -/

namespace Sys2Proof.Machine

/-! ## What a codec command does -/

theorem registerWrite_of_not_isConfig {i : Instr} (h : isConfig i = false) (s : State) : registerWrite i s = s := by
  cases i
  case buildCtrl | decodeSigned | decodeVoltage | readRaw | read | readVoltage => rfl
  all_goals exact absurd h.symm Bool.false_ne_true

/-- R47: only addresses can be illegal inside a well-masked word. -/
theorem wellFormed_of_not_isConfig {i : Instr} (h : isConfig i = false) : i.wellFormed = true := by
  cases i
  case buildCtrl | decodeSigned | decodeVoltage | readRaw | read | readVoltage => rfl
  all_goals exact absurd h.symm Bool.false_ne_true

/-- A command that is neither a configuration command nor a read answers, and does nothing else. -/
theorem exec_of_codec {i : Instr} (hread : isRead i = false) (hconfig : isConfig i = false) (s : State) :
    exec i s = .next (s.respond (.ok (directAnswer i))) := by
  rw [exec_of_not_isRead i s hread, registerWrite_of_not_isConfig hconfig]

/-- R48: a word with a reserved operand bit set is answered by the error alone. -/
theorem step_offer_reserved (o : Opcode) {x : Word} {s : State} (hidle : s.phase = .idle)
    (hreserved : x &&& o.reservedMask ≠ 0) :
    step (s.offer (commandWord o.op x)) = .next { s with responses := s.responses ++ [.err .illegalCommand] } := by
  have hdec := decode_of_findRow_none (findRow_commandWord_reserved o x hreserved)
  rw [step_offer s _ hidle, runCommand_of_error s hdec, ← State.respond_of_idle hidle]
  rfl

/-- The word of a codec command, its reserved operand bits zero: the answer, and nothing else changed. -/
theorem step_offer_codec (o : Opcode) {x : Word} {i : Instr} {s : State} (hidle : s.phase = .idle)
    (hreserved : x &&& o.reservedMask = 0) (hoperands : readOperands o (commandWord o.op x) = i)
    (hread : isRead i = false) (hconfig : isConfig i = false) :
    step (s.offer (commandWord o.op x)) = .next { s with responses := s.responses ++ [.ok (directAnswer i)] } := by
  have hdec := (decode_commandWord_eq_ok_iff o x i).mpr ⟨hreserved, hoperands, wellFormed_of_not_isConfig hconfig⟩
  rw [stepRunsTheDecodedCommand s _ i hidle hdec, exec_of_codec hread hconfig, State.respond_of_idle hidle]

/-! ## BUILD_CTRL -/

theorem extractLsb'_high_setWidth_of_byte (b : Byte) : (b.setWidth 16).extractLsb' 8 8 = 0 := by
  apply BitVec.eq_of_getLsbD_eq
  intro n hn
  simp

/-- R61's formula, taken at the width of the response instead of a byte. -/
theorem controlByte_setWidth (c : Channel) (p : Polarity) (m : SleepMode) :
    (controlByte c p m).setWidth 16 =
      (c.setWidth 16 <<< 4) ||| (p.bit.setWidth 16 <<< 3) ||| (m.bit.setWidth 16 <<< 2) := by
  revert c
  cases p <;> cases m <;> decide

/-- Settles O21: the result's fields are the control byte's, and format K's legal operands are those with OPND[15:6]
zero. -/
theorem buildCtrlAnswersControlByte : Obligations.BuildCtrlAnswersControlByte := by
  refine ⟨fun s c p m => ⟨_, exec_of_codec rfl rfl s, ?high, ?ch, ?uni, ?slp, ?low⟩, fun s x hidle => ?word⟩
  case high => exact extractLsb'_high_setWidth_of_byte _
  case ch => exact (BitVec.extractLsb'_setWidth_of_le (by decide)).trans (controlByte_extract_ch c p m)
  case uni => exact (BitVec.getLsbD_setWidth ..).trans (controlByte_bit_uni c p m)
  case slp => exact (BitVec.getLsbD_setWidth ..).trans (controlByte_bit_slp c p m)
  case low => exact (BitVec.extractLsb'_setWidth_of_le (by decide)).trans (controlByte_extract_low c p m)
  case word =>
    have hmask : x &&& 0xFFC0 = 0 ↔ x.extractLsb' 6 10 = 0 := and_eq_zero_iff_extractLsb' 6 10 rfl (by decide)
    split
    case isTrue h =>
      have hoperands : readOperands .buildCtrl (commandWord 0x10 x) =
          .buildCtrl (x.extractLsb' 0 4) (.ofBit (x.extractLsb' 4 1)) (.ofBit (x.extractLsb' 5 1)) := by
        simp [readOperands, bitField_commandWord]
      have hanswer := controlByte_setWidth (x.extractLsb' 0 4) (.ofBit (x.extractLsb' 4 1)) (.ofBit (x.extractLsb' 5 1))
      rw [Polarity.bit_ofBit, SleepMode.bit_ofBit] at hanswer
      rw [← hanswer]
      exact step_offer_codec .buildCtrl hidle (hmask.mpr h) hoperands rfl rfl
    case isFalse h => exact step_offer_reserved .buildCtrl hidle (mt hmask.mp h)

/-! ## DECODE_SIGNED -/

/-- The decoded sample is the signed 12-bit field: sign extension keeps its value. -/
theorem toInt_decodeRaw (w : Word) : (decodeRaw w).toInt = (w.extractLsb' 4 12).toInt :=
  BitVec.toInt_signExtend_of_le (by decide)

theorem toInt_decodeRaw_bounds (w : Word) : -2048 ≤ (decodeRaw w).toInt ∧ (decodeRaw w).toInt ≤ 2047 := by
  have hlow := BitVec.le_toInt (w.extractLsb' 4 12)
  have hhigh := BitVec.toInt_lt (x := w.extractLsb' 4 12)
  rw [toInt_decodeRaw]
  omega

/-- R62: bits 15..11 of a decoded sample are copies of its sign. -/
theorem decodeRaw_getLsbD_of_le (w : Word) {k : Nat} (hlow : 11 ≤ k) (hhigh : k ≤ 15) :
    (decodeRaw w).getLsbD k = w.getLsbD 15 := by
  rw [decodeRaw_eq_sshiftRight, BitVec.getLsbD_sshiftRight, BitVec.msb_eq_getLsbD_last]
  obtain rfl | hk : k = 11 ∨ 12 ≤ k := by omega
  · simp
  · simp [show ¬16 ≤ k by omega, show ¬4 + k < 16 by omega]

/-- Settles O22: the answer is `decodeRaw`, which sees `w[15:4]` only. -/
theorem decodeSignedSignExtends : Obligations.DecodeSignedSignExtends := by
  refine ⟨fun s w => exec_of_codec rfl rfl s, fun s w hidle => ?word, fun w v h => ?padding, fun w => ?range⟩
  case word =>
    rw [← decodeRaw_eq_sshiftRight]
    have hoperand : readOperands .decodeSigned (commandWord 0x11 w) = .decodeSigned w :=
      congrArg Instr.decodeSigned (wordField_commandWord _ w)
    exact step_offer_codec .decodeSigned hidle BitVec.and_zero hoperand rfl rfl
  case padding => rw [decodeRaw, decodeRaw, h]
  case range =>
    obtain ⟨hlow, hhigh⟩ := toInt_decodeRaw_bounds w
    exact ⟨hlow, hhigh, fun k => decodeRaw_getLsbD_of_le w⟩

/-! ## DECODE_VOLTAGE and the arithmetic laws -/

/-- R64: 4.096 V in 4096 steps is 1 mV a step, so scaling by both loses nothing. -/
theorem volts_eq_toInt_mul_fullScale (v : Word) : volts v = (v.toInt : ℚ) * (4096 / 1000) / 4096 := by
  unfold volts
  ring

/-- Settles O23. -/
theorem decodeVoltageScalesExactly : Obligations.DecodeVoltageScalesExactly := by
  refine ⟨fun s v => exec_of_codec rfl rfl s, fun s v hidle => ?word, volts_eq_toInt_mul_fullScale⟩
  case word =>
    have hoperand : readOperands .decodeVoltage (commandWord 0x12 v) = .decodeVoltage v :=
      congrArg Instr.decodeVoltage (wordField_commandWord _ v)
    exact step_offer_codec .decodeVoltage hidle BitVec.and_zero hoperand rfl rfl

/-- A control byte is a multiple of four: its bits 1..0 are zero. -/
theorem controlByte_toNat_le (c : Channel) (p : Polarity) (m : SleepMode) : (controlByte c p m).toNat ≤ 0xFC := by
  have hbyte : (controlByte c p m).toNat < 256 := (controlByte c p m).isLt
  have hlow : (controlByte c p m).toNat % 4 = 0 := by
    simpa using congrArg BitVec.toNat (controlByte_extract_low c p m)
  omega

theorem volts_decodeRaw_bounds (w : Word) :
    -(2048 : ℚ) / 1000 ≤ volts (decodeRaw w) ∧ volts (decodeRaw w) ≤ 2047 / 1000 := by
  obtain ⟨hlow, hhigh⟩ := toInt_decodeRaw_bounds w
  have hlow' : (-2048 : ℚ) ≤ (decodeRaw w).toInt := by exact_mod_cast hlow
  have hhigh' : ((decodeRaw w).toInt : ℚ) ≤ 2047 := by exact_mod_cast hhigh
  unfold volts
  constructor <;> linarith

/-- Settles O24, from the value of a decoded sample (`toInt_decodeRaw`) and its bounds. -/
theorem codecArithmeticLaws : Obligations.CodecArithmeticLaws := by
  refine ⟨rfl, by norm_num [Config.lsb, Config.fullScale], controlByte_toNat_le, fun w => ?sample,
    fun v => ⟨rfl, rfl⟩, volts_decodeRaw_bounds⟩
  case sample =>
    obtain ⟨hlow, hhigh⟩ := toInt_decodeRaw_bounds w
    exact ⟨toInt_decodeRaw w, hlow, hhigh, rfl⟩

/-! ## What a command answers -/

/-- What a command answers, from INIT and the BUS's answers to come alone (R72 to R76 for the three reads). -/
def commandAnswer (i : Instr) (init : Bool) (o : Oracle) : Response :=
  if isRead i then
    if init then
      match o.nextStatus.1 with
      | .error e => .err (.transport e)
      | .ok => .ok (readResult i (assembleRaw o.nextStatus.2.nextByte.1 o.nextStatus.2.nextByte.2.nextByte.1))
    else .err .notInitialized
  else .ok (directAnswer i)

theorem commandAnswer_of_not_isRead {i : Instr} (h : isRead i = false) (init : Bool) (o : Oracle) :
    commandAnswer i init o = .ok (directAnswer i) := by
  simp [commandAnswer, h]

theorem commandAnswer_uninitialised {i : Instr} (h : isRead i = true) (o : Oracle) :
    commandAnswer i false o = .err .notInitialized := by
  simp [commandAnswer, h]

theorem commandAnswer_aborted {i : Instr} {o : Oracle} {e : TransportError} (h : isRead i = true)
    (hst : o.nextStatus.1 = .error e) : commandAnswer i true o = .err (.transport e) := by
  simp [commandAnswer, h, hst]

theorem commandAnswer_completed {i : Instr} {o : Oracle} (h : isRead i = true) (hst : o.nextStatus.1 = .ok) :
    commandAnswer i true o =
      .ok (readResult i (assembleRaw o.nextStatus.2.nextByte.1 o.nextStatus.2.nextByte.2.nextByte.1)) := by
  simp [commandAnswer, h, hst]

/-- Every command answers once, with `commandAnswer`. -/
theorem exec_answers (i : Instr) (s : State) :
    ∃ t, exec i s = .next t ∧ t.responses = s.responses ++ [commandAnswer i s.init s.oracle] := by
  cases hr : isRead i with
  | false =>
    refine ⟨_, exec_of_not_isRead i s hr, ?_⟩
    rw [State.respond_responses, registerWrite_responses, commandAnswer_of_not_isRead hr]
  | true =>
    rw [exec_of_isRead i s hr]
    obtain hinit | hinit := Bool.eq_false_or_eq_true s.init
    · rw [hinit]
      cases hst : s.oracle.nextStatus.1 with
      | error e => exact ⟨_, readCommand_aborted _ s e hinit hst, by rw [commandAnswer_aborted hr hst]⟩
      | ok => exact ⟨_, readCommand_completed _ s hinit hst, by rw [commandAnswer_completed hr hst]⟩
    · rw [hinit]
      exact ⟨_, readCommand_uninitialised _ s hinit, by rw [commandAnswer_uninitialised hr]⟩

/-- R73, R74: READ and READ_VOLTAGE answer the decoded sample of a completed transaction. -/
theorem commandAnswer_decoded {i : Instr} {o o0 o1 o2 : Oracle} {b0 b1 : Byte} (hi : i = .read ∨ i = .readVoltage)
    (hst : o.nextStatus = (.ok, o0)) (h0 : o0.nextByte = (b0, o1)) (h1 : o1.nextByte = (b1, o2)) :
    commandAnswer i true o = .ok (decodeRaw (assembleRaw b0 b1)) := by
  have hread : isRead i = true := by obtain rfl | rfl := hi <;> rfl
  rw [commandAnswer_completed hread (by rw [hst]), hst, h0, h1]
  obtain rfl | rfl := hi <;> rfl

/-- Settles O25: both states have the same INIT and the same BUS answers, and `commandAnswer` is of these alone. -/
theorem decodingIgnoresTheMode : Obligations.DecodingIgnoresTheMode := by
  intro i s a c p m
  obtain ⟨t, ht, htr⟩ := exec_answers i s
  obtain ⟨u, hu, hur⟩ := exec_answers i { s with addr := a, ch := c, uni := p, slp := m }
  refine ⟨t, u, _, ht, hu, htr, hur, ?decodeSigned, ?read⟩
  case decodeSigned =>
    rintro w rfl
    exact commandAnswer_of_not_isRead rfl _ _
  case read =>
    rintro o o1 o2 b0 b1 raw hi hinit hst h0 h1 rfl
    rw [hinit]
    exact commandAnswer_decoded hi hst h0 h1

end Sys2Proof.Machine

/-! # Transactions: proofs

What a read does is said once, for all three reads: its three cases of R76 as whole next states (`exec_uninitialised`,
`exec_aborted`, `exec_completed`), what it shows whatever the case (`exec_read`), and its word for every OPND
(`step_offer_read`). That a run never stops is an induction over single steps, none of which is refused from IDLE
(`step_of_idle`). -/

namespace Sys2Proof.Machine

/-! ## Runs never stop -/

/-- R79, R98: from IDLE no input is refused and no step faults. -/
theorem step_of_idle {s : State} (hidle : s.phase = .idle) : ∃ t, step s = .next t := by
  cases hin : s.inputs with
  | nil => exact ⟨s, step_of_no_input s hin⟩
  | cons x rest =>
    cases x with
    | command w =>
      obtain ⟨t, -, -, hrun, -⟩ := runCommand_frame w { s with inputs := rest }
      exact ⟨t, (step_command hin hidle).trans hrun⟩
    | reset => exact ⟨_, step_reset hin⟩
    | commandThenReset w n => exact ⟨_, step_commandThenReset hin hidle⟩

/-- Settles O47, by induction on the length of the run: a state that meets the invariant is IDLE, so it steps
(`step_of_idle`), and the step keeps the invariant (O45). -/
theorem runsNeverStop : Obligations.RunsNeverStop := by
  intro s k
  induction k generalizing s with
  | zero => exact fun hinv => ⟨s, run_zero s, hinv⟩
  | succ k ih =>
    intro hinv
    obtain ⟨u, hstep⟩ := step_of_idle hinv.1
    obtain ⟨t, hrun, ht⟩ := ih u (everyStepKeepsTheInvariant s u hinv hstep)
    exact ⟨t, (run_succ s u k hstep).trans hrun, ht⟩

/-! ## READ_WORD -/

/-- R70, bit by bit: the low byte is the second, the high byte the first. -/
theorem assembleRaw_getLsbD (b0 b1 : Byte) (k : Nat) (hk : k < 16) :
    (assembleRaw b0 b1).getLsbD k = if k < 8 then b1.getLsbD k else b0.getLsbD (k - 8) := by
  by_cases hlow : k < 8
  · simp [assembleRaw, hk, hlow]
  · simp [assembleRaw, hk, hlow, BitVec.getLsbD_of_ge b1 k (by omega)]

/-- Settles O27. -/
theorem rawWordKeepsBothBytes : Obligations.RawWordKeepsBothBytes := by
  refine fun b0 b1 => ⟨BitVec.eq_of_getLsbD_eq fun k hk => ?high, BitVec.eq_of_getLsbD_eq fun k hk => ?low⟩
  case high =>
    rw [BitVec.getLsbD_extractLsb', assembleRaw_getLsbD b0 b1 (8 + k) (by omega)]
    simp [hk]
  case low =>
    rw [BitVec.getLsbD_extractLsb', assembleRaw_getLsbD b0 b1 (0 + k) (by omega)]
    simp [hk]

/-- Settles O34: the answers wanted are listed in front of those of the oracle to go on with. -/
theorem oracleAdmitsEveryAnswer : Obligations.OracleAdmitsEveryAnswer := fun st b0 b1 o =>
  ⟨{ o with statuses := st :: o.statuses, bytes := b0 :: b1 :: o.bytes }, { o with bytes := b0 :: b1 :: o.bytes },
    { o with bytes := b1 :: o.bytes }, rfl, rfl, rfl⟩

/-- Settles O26, from READ_WORD's two outcomes (`readWord_aborted`, `readWord_completed`). -/
theorem readWordFollowsTheFiveSteps : Obligations.ReadWordFollowsTheFiveSteps := by
  refine ⟨fun a c s e o hst => ?aborted, fun a c s o o1 o2 b0 b1 hst h0 h1 => ?completed⟩
  case aborted =>
    have hread := readWord_aborted a c s e (by rw [hst])
    rw [hst] at hread
    exact ⟨_, hread, rfl, rfl, rfl, rfl⟩
  case completed =>
    have hread := readWord_completed a c s (by rw [hst])
    rw [hst, h0, h1] at hread
    exact ⟨_, hread, rfl, rfl, rfl, rfl⟩

/-! ## What a read does -/

section Read

variable {i : Instr} {s : State}

/-- R76 R-a, as the next state. -/
theorem exec_uninitialised (hr : isRead i = true) (hinit : s.init = false) :
    exec i s = .next { s with phase := .idle, responses := s.responses ++ [.err .notInitialized] } :=
  (exec_of_isRead i s hr).trans (readCommand_uninitialised _ s hinit)

/-- R76 R-b, as the next state. -/
theorem exec_aborted {e : TransportError} {o : Oracle} (hr : isRead i = true) (hinit : s.init = true)
    (hst : s.oracle.nextStatus = (.error e, o)) :
    exec i s = .next { s with
      phase := .idle, oracle := o, responses := s.responses ++ [.err (.transport e)],
      events := s.events ++ [.beginTx s.addr, .write s.ctrl, .endTx (.error e)] } := by
  rw [exec_of_isRead i s hr, readCommand_aborted _ s e hinit (by rw [hst]), hst]

/-- R76 R-c, as the next state: HI keeps the first byte (log 5). -/
theorem exec_completed {o o1 o2 : Oracle} {b0 b1 : Byte} (hr : isRead i = true) (hinit : s.init = true)
    (hst : s.oracle.nextStatus = (.ok, o)) (h0 : o.nextByte = (b0, o1)) (h1 : o1.nextByte = (b1, o2)) :
    exec i s = .next { s with
      phase := .idle, hi := b0, oracle := o2,
      responses := s.responses ++ [.ok (readResult i (assembleRaw b0 b1))],
      events := s.events ++
        [.beginTx s.addr, .write s.ctrl, .endTx .ok, .request s.addr 2, .readByte b0, .readByte b1] } := by
  rw [exec_of_isRead i s hr, readCommand_completed _ s hinit (by rw [hst]), hst, h0, h1]

/-- What a read does whatever its case: it gives `commandAnswer`, sends the events of one transaction or none, and
leaves all but HI, PHASE, the oracle and the two ports as they are (R75). -/
theorem exec_read (i : Instr) (s : State) (hr : isRead i = true) :
    ∃ h o, exec i s = .next { s with
      phase := .idle, hi := h, oracle := o,
      responses := s.responses ++ [commandAnswer i s.init s.oracle],
      events := s.events ++ if s.init = true then s.readEvents else [] } := by
  rw [exec_of_isRead i s hr]
  obtain hinit | hinit := Bool.eq_false_or_eq_true s.init
  · cases hst : s.oracle.nextStatus.1 with
    | error e =>
      rw [if_pos hinit, readEvents_aborted hst, hinit, commandAnswer_aborted hr hst]
      exact ⟨s.hi, _, hinit ▸ readCommand_aborted _ s e hinit hst⟩
    | ok =>
      rw [if_pos hinit, readEvents_completed hst, hinit, commandAnswer_completed hr hst]
      exact ⟨_, _, hinit ▸ readCommand_completed _ s hinit hst⟩
  · rw [hinit, commandAnswer_uninitialised hr, if_neg Bool.false_ne_true, List.append_nil]
    exact ⟨s.hi, s.oracle, hinit ▸ readCommand_uninitialised _ s hinit⟩

/-- The three reads share everything of their word but OP: no legal operand bit, no operand. -/
theorem row_of_isRead (hr : isRead i = true) (w : Command) :
    i.opcode.reservedMask = BitVec.allOnes 16 ∧ readOperands i.opcode w = i ∧ i.wellFormed = true := by
  cases i
  case readRaw | read | readVoltage => exact ⟨rfl, rfl, rfl⟩
  all_goals exact absurd hr Bool.false_ne_true

/-- The word of a read, for every OPND: it is legal with OPND = 0 only. -/
theorem step_offer_read (hr : isRead i = true) (hidle : s.phase = .idle) (x : Word) :
    step (s.offer (commandWord i.opcode.op x)) =
      if x = 0 then exec i s else .next { s with responses := s.responses ++ [.err .illegalCommand] } := by
  obtain ⟨hmask, hoperands, hwf⟩ := row_of_isRead hr (commandWord i.opcode.op x)
  have hreserved : x &&& i.opcode.reservedMask = x := by rw [hmask, BitVec.and_allOnes]
  split
  case isTrue h =>
    exact stepRunsTheDecodedCommand s _ i hidle
      ((decode_commandWord_eq_ok_iff i.opcode x i).mpr ⟨hreserved.trans h, hoperands, hwf⟩)
  case isFalse h => exact step_offer_reserved i.opcode hidle (hreserved.symm ▸ h)

end Read

/-! ## The three reads -/

/-- Settles O28: READ_RAW's answer is the raw word itself. -/
theorem readRawAnswersRawWord : Obligations.ReadRawAnswersRawWord :=
  ⟨fun _ hinit => exec_uninitialised rfl hinit, fun _ _ _ hinit hst => exec_aborted rfl hinit hst,
    fun _ _ _ _ b0 _ hinit hst h0 h1 => ⟨b0, exec_completed rfl hinit hst h0 h1⟩,
    fun _ x hidle => step_offer_read (i := .readRaw) rfl hidle x⟩

/-- Settles O29: READ's answer is the decoded raw word (`decodeRaw_eq_sshiftRight`, `toInt_decodeRaw_bounds`). -/
theorem readAnswersSample : Obligations.ReadAnswersSample :=
  ⟨fun _ hinit => exec_uninitialised rfl hinit, fun _ _ _ hinit hst => exec_aborted rfl hinit hst,
    fun _ _ _ _ b0 _ hinit hst h0 h1 => ⟨b0, _, exec_completed rfl hinit hst h0 h1,
      decodeRaw_eq_sshiftRight _, toInt_decodeRaw_bounds _⟩,
    fun _ x hidle => step_offer_read (i := .read) rfl hidle x⟩

/-- Settles O30: READ_VOLTAGE's answer is the decoded raw word too, and as a voltage it is bounded by
`volts_decodeRaw_bounds`. -/
theorem readVoltageAnswersMillivolts : Obligations.ReadVoltageAnswersMillivolts :=
  ⟨fun _ hinit => exec_uninitialised rfl hinit, fun _ _ _ hinit hst => exec_aborted rfl hinit hst,
    fun _ _ _ _ b0 _ hinit hst h0 h1 => ⟨b0, _, exec_completed rfl hinit hst h0 h1,
      decodeRaw_eq_sshiftRight _, volts_decodeRaw_bounds _⟩,
    fun _ x hidle => step_offer_read (i := .readVoltage) rfl hidle x⟩

/-! ## What all reads have in common -/

/-- Settles O31. -/
theorem readsNeverWriteRegisters : Obligations.ReadsNeverWriteRegisters := by
  intro i s hr
  obtain ⟨h, o, hex⟩ := exec_read i s hr
  exact ⟨_, _, hex, rfl, rfl, rfl⟩

/-- Settles O32: what a read shows (`exec_read`), in the cases of INIT and of the status. -/
theorem readEventLists : Obligations.ReadEventLists := by
  intro i s hr
  obtain ⟨h, o, hex⟩ := exec_read i s hr
  refine ⟨_, _, _, hex, rfl, rfl, ?_⟩
  obtain hinit | hinit := Bool.eq_false_or_eq_true s.init
  · rw [hinit, if_pos rfl]
    cases hst : s.oracle.nextStatus.1 with
    | error e => exact .inr (.inl ⟨rfl, e, readEvents_aborted hst, commandAnswer_aborted hr hst⟩)
    | ok => exact .inr (.inr ⟨rfl, _, _, readEvents_completed hst, commandAnswer_completed hr hst⟩)
  · rw [hinit, if_neg Bool.false_ne_true]
    exact .inl ⟨rfl, rfl, commandAnswer_uninitialised hr _⟩

/-- Settles O33. -/
theorem abortWithoutReadPhase : Obligations.AbortWithoutReadPhase :=
  fun _ _ _ _ hr hinit hst => ⟨_, exec_aborted hr hinit hst, rfl, rfl, rfl⟩

/-! ## The bus traffic of a command -/

/-- A `BusWrite` (R10). -/
def isBusWrite : BusEvent → Bool
  | .write _ => true
  | _ => false

/-- A `BusReadByte` (R10). -/
def isBusReadByte : BusEvent → Bool
  | .readByte _ => true
  | _ => false

/-- R33, R77: the traffic of a legal observation is bounded. -/
theorem Observation.traffic {s : State} {r : Response} {evs : List BusEvent} (h : Observation s r evs) :
    evs.length ≤ 6 ∧ evs.countP isBusWrite ≤ 1 ∧
      (evs.countP isBusReadByte = 0 ∨ evs.countP isBusReadByte = 2) := by
  cases h with
  | quiet => exact ⟨Nat.zero_le _, Nat.zero_le _, .inl rfl⟩
  | aborted => exact ⟨by simp, Nat.le_refl 1, .inl rfl⟩
  | completed => exact ⟨Nat.le_refl 6, Nat.le_refl 1, .inr rfl⟩

/-- Settles O42: a command word's frame (`runCommand_frame`) and the bounds on its observation (O43). -/
theorem atMostSixPrimitives : Obligations.AtMostSixPrimitives := by
  intro s w hidle
  obtain ⟨t, r, evs, hstep, hresponses, hevents, hobs⟩ := everyCommandIsOneLegalObservation s w hidle
  obtain ⟨u, -, -, hrun, hinputs, hphase, -⟩ := runCommand_frame w s
  obtain rfl : t = u := Host.Outcome.next.inj (hstep.symm.trans ((step_offer s w hidle).trans hrun))
  exact ⟨t, r, evs, hstep, hphase, hinputs, hresponses, hevents, hobs.traffic⟩

end Sys2Proof.Machine

/-! # Errors: proofs

What a command shows on its two ports is said once for all commands (`exec_output`): its answer is `commandAnswer`, and
it has bus events only as a read with INIT = 1. Which error it answers is then read off `commandAnswer`. -/

namespace Sys2Proof.Machine

/-! ## Transport errors -/

/-- R80, for one observation: only an aborted read shows a failed BusEndTx, and it answers that same error. -/
theorem Observation.transport_iff {s : State} {r : Response} {evs : List BusEvent} (h : Observation s r evs)
    (e : TransportError) : r = .err (.transport e) ↔ BusEvent.endTx (.error e) ∈ evs := by
  cases h with
  | quiet r hquiet => exact iff_of_false (hquiet e) List.not_mem_nil
  | aborted e' => simp [eq_comm]
  | completed => simp

/-- Settles O37, from the observation every command word shows (O43). -/
theorem transportErrorsAreNeverMadeUp : Obligations.TransportErrorsAreNeverMadeUp := by
  intro s w hidle
  obtain ⟨t, r, evs, hstep, hresponses, hevents, hobs⟩ := everyCommandIsOneLegalObservation s w hidle
  exact ⟨t, r, evs, hstep, hresponses, hevents, hobs.transport_iff⟩

/-! ## Reads before BEGIN -/

/-- What any command shows: its answer, and the events of one transaction if it is a read with INIT = 1. -/
theorem exec_output (i : Instr) (s : State) :
    ∃ t, exec i s = .next t ∧ t.responses = s.responses ++ [commandAnswer i s.init s.oracle] ∧
      t.events = s.events ++ if isRead i = true ∧ s.init = true then s.readEvents else [] := by
  cases hr : isRead i with
  | false =>
    obtain ⟨_, _, _, _, hex, hquiet⟩ := exec_frame i s
    obtain ⟨-, -, rfl, rfl⟩ := hquiet hr
    exact ⟨_, hex, by rw [commandAnswer_of_not_isRead hr], by simp⟩
  | true =>
    obtain ⟨_, _, hex⟩ := exec_read i s hr
    exact ⟨_, hex, rfl, by simp⟩

/-- R81, for the answer alone: an initialised read answers the transport's error or data, any other command data. -/
theorem commandAnswer_eq_notInitialized_iff (i : Instr) (init : Bool) (o : Oracle) :
    commandAnswer i init o = .err .notInitialized ↔ isRead i = true ∧ init = false := by
  cases hr : isRead i with
  | false => simp [commandAnswer_of_not_isRead hr]
  | true =>
    cases init with
    | false => simp [commandAnswer_uninitialised hr]
    | true =>
      cases hst : o.nextStatus.1 with
      | error e => simp [commandAnswer_aborted hr hst]
      | ok => simp [commandAnswer_completed hr hst]

/-- Settles O38: the answer says whether the command is an uninitialised read, and such a read has no events. -/
theorem notInitializedExactlyBeforeBegin : Obligations.NotInitializedExactlyBeforeBegin := by
  intro i s
  obtain ⟨t, hex, hresponses, hevents⟩ := exec_output i s
  have hiff := commandAnswer_eq_notInitialized_iff i s.init s.oracle
  refine ⟨t, _, hex, hresponses, hiff, fun hanswer => ?_⟩
  obtain ⟨-, hinit⟩ := hiff.mp hanswer
  simpa [hinit] using hevents

/-! ## The order of errors -/

/-- Settles O39: the decoder is asked first; then the cases are those of `commandAnswer`. -/
theorem errorPriority : Obligations.ErrorPriority := by
  intro s w hidle
  rw [step_offer s w hidle]
  cases hdec : decode w with
  | error _ =>
    rw [runCommand_of_error s hdec]
    exact ⟨_, _, illegalCommand_eq s, rfl, rfl, rfl⟩
  | ok i =>
    rw [runCommand_of_ok s hdec]
    obtain ⟨t, hex, hresponses, hevents⟩ := exec_output i s
    refine ⟨t, _, hex, hresponses, ?_⟩
    dsimp only
    split_ifs with hr hinit
    · rw [hinit]
      exact ⟨commandAnswer_uninitialised hr _, by simpa [hinit] using hevents⟩
    · rw [Bool.of_not_eq_false hinit]
      split
      next e hst => exact commandAnswer_aborted hr hst
      next hst => exact ⟨_, commandAnswer_completed hr hst⟩
    · exact ⟨_, commandAnswer_of_not_isRead (Bool.of_not_eq_true hr) _ _⟩

end Sys2Proof.Machine

/-! # Reset and hazards: proofs

What a command in progress has shown on the two ports when reset arrives is said once (`inProgress_ports`), from the
stages of READ_WORD (O35); the abandoned command is then a reset of that state. -/

namespace Sys2Proof.Machine

/-! ## Waiting, reset, and commands while BUSY = 1 -/

/-- Settles O3: nothing is pending after reset, and with nothing pending a step waits (`step_of_no_input`). -/
theorem waitsForACommand : Obligations.WaitsForACommand :=
  ⟨rfl, step_of_no_input State.reset State.reset_inputs, step_of_no_input⟩

/-- Settles O2: reset is taken in every PHASE (`step_offerReset`), and writes only the registers. -/
theorem resetAtAnyTime : Obligations.ResetAtAnyTime := fun s =>
  ⟨s.applyReset, step_offerReset s, rfl, rfl, rfl, rfl, rfl, rfl, rfl, rfl, rfl⟩

/-- Settles O5: both inputs carry a command, and a busy block takes none (`step_busy`). -/
theorem busyBlockTakesNoCommand : Obligations.BusyBlockTakesNoCommand := fun s w n hbusy =>
  ⟨step_busy (s := s.offer w) rfl nofun hbusy, step_busy (s := s.offerThenReset w n) rfl nofun hbusy⟩

/-! ## A command that reset cuts short -/

theorem isRead_iff (i : Instr) : isRead i = true ↔ i = .readRaw ∨ i = .read ∨ i = .readVoltage := by
  cases i <;> simp [isRead]

/-- No stage of READ_WORD takes an input of the HOST's. -/
theorem readWordPrefix_inputs (n : Nat) (a : Addr) (c : Byte) (s : State) :
    (readWordPrefix n a c s).inputs = s.inputs := by
  fun_cases readWordPrefix n a c s
  all_goals simp [txOpened_eq, txWritten_eq, txClosed_eq, rxFirst_eq, rxSecond_eq, rxRequested, busRequest]

/-- Before its response a command has taken no further input, and only a read with INIT = 1 has used the bus, for the
first `n` events of its transaction (R21, R93). -/
theorem inProgress_ports (i : Instr) (n : Nat) (s : State) :
    (inProgress i n s).inputs = s.inputs ∧ (inProgress i n s).responses = s.responses ∧
    (inProgress i n s).events =
      s.events ++ if isRead i = true ∧ s.init = true then s.readEvents.take n else [] := by
  by_cases hr : isRead i = true
  · by_cases hinit : s.init = true
    · obtain ⟨hevents, hresponses, -⟩ := readWordPrefixesRefineIt s n
      rw [inProgress, if_pos hr, if_pos hinit, if_pos ⟨hr, hinit⟩]
      exact ⟨readWordPrefix_inputs n _ _ s, hresponses, hevents⟩
    · simp [inProgress, hr, hinit]
  · simp [inProgress, hr]

/-- R93's abandoned command: the reset of a state that has the ports of the command in progress. -/
theorem abandonCommand_frame (w : Command) (n : Nat) (s : State) :
    ∃ u : State, abandonCommand w n s = u.applyReset ∧ u.inputs = s.inputs ∧ u.responses = s.responses ∧
      u.events = s.events ++
        if (decode w = .ok .readRaw ∨ decode w = .ok .read ∨ decode w = .ok .readVoltage) ∧ s.init = true
        then s.readEvents.take n else [] := by
  cases hd : decode w with
  | error e => exact ⟨s, by simp only [abandonCommand, hd], rfl, rfl, by simp⟩
  | ok i =>
    obtain ⟨hinputs, hresponses, hevents⟩ := inProgress_ports i n s
    refine ⟨inProgress i n s, by simp only [abandonCommand, hd], hinputs, hresponses, ?_⟩
    simpa only [Except.ok.injEq, isRead_iff] using hevents

/-- Settles O52: the step abandons the command, and reset keeps the ports of the state it is given. -/
theorem resetInsideACommand : Obligations.ResetInsideACommand := by
  intro s w n hidle
  obtain ⟨u, habandon, hinputs, hresponses, hevents⟩ := abandonCommand_frame w n s
  exact ⟨u.applyReset, (step_offerThenReset s w n hidle).trans (congrArg _ habandon), rfl, rfl, rfl, rfl, rfl, rfl,
    hresponses, hinputs, hevents⟩

end Sys2Proof.Machine
